-- ==== Sys2Proof/Word.lean ====
section
/-! DEFINITION. The word types of the machine: what `spec/00_scope.md` R6 and R13 give a width to. -/

namespace Sys2Proof

/-- A memory byte, a general register, a timer (R6: `XLEN_V` = 8), the immediate `NN`. -/
abbrev Byte := BitVec 8

/-- `PC`, `I`, a stack entry, `IR`, an instruction word (R6: 16 bits). -/
abbrev Word := BitVec 16

/-- The 12-bit address field `NNN` (R92). -/
abbrev Addr := BitVec 12

/-- The 4-bit immediate `N` (R92). -/
abbrev Nibble := BitVec 4

/-- A general-register number, 0 to 15 (R21): the fields `X` and `Y`. -/
abbrev Reg := Fin 16

/-- A logical-key number, 0x0 to 0xF (R39). -/
abbrev Key := Fin 16

end Sys2Proof
end

