-- ==== Sys2Proof/Config.lean ====
section
/-! DEFINITION. What is fixed for a machine: the constants of `spec/00_scope.md` R6, the named parameters of R7 with
their defaults, and the free value of R192. -/

namespace Sys2Proof.Config

/-- `MEM_SIZE` (R6): bytes of memory, addresses 0x000 to 0xFFF. -/
@[simp] abbrev memSize : Nat := 4096

/-- `STACK_DEPTH` (R6, R28). -/
@[simp] abbrev stackDepth : Nat := 16

/-- `FONT_BASE` (R6): the first byte of the font table. -/
@[simp] abbrev fontBase : Nat := 0x050

/-- `FONT_LEN` (R6): 16 glyphs of 5 bytes. -/
@[simp] abbrev fontLen : Nat := 80

/-- `ROM_BASE` (R6): the first byte of the loaded ROM. -/
@[simp] abbrev romBase : Nat := 0x200

/-- `ROM_MAX` (R6): the largest ROM that fits, 4096 − 0x200. -/
@[simp] abbrev romMax : Nat := 3584

/-- `PC_RESET` (R6). -/
@[simp] abbrev pcReset : Word := 0x0200

/-- `FB_W` (R6): framebuffer columns. -/
@[simp] abbrev fbWidth : Nat := 64

/-- `FB_H` (R6): framebuffer rows. -/
@[simp] abbrev fbHeight : Nat := 32

/-- `EXT_OPS` (R7, R190): which of the four instructions missing from the document's table are decoded. -/
structure ExtOps where
  sys  : Bool
  rnd  : Bool
  ldSt : Bool
  ldF  : Bool
  deriving DecidableEq, Repr

/-- `EXT_OPS = ∅`, the default (R190). -/
def noExtOps : ExtOps := ⟨false, false, false, false⟩

/-- Every member of `EXT_OPS` enabled. -/
def allExtOps : ExtOps := ⟨true, true, true, true⟩

/-- `VF_ORDER` (R7, R140): how two writes of one instruction to the same register resolve. -/
inductive VfOrder where
  | tableOrder
  | flagLast
  deriving DecidableEq, Repr

/-- `KEY_OOR` (R7, R180): what SKP and SKNP do when `V[X] > 0xF`. -/
inductive KeyOor where
  | fault
  | mask4
  | notPressed
  deriving DecidableEq, Repr

/-- `Q_SHIFT_SRC` (R7): the shift source of `8XY6` and `8XYE`. -/
inductive ShiftSrc where
  | vx
  | vy
  deriving DecidableEq, Repr

/-- `Q_LOGIC_VF` (R7): whether `8XY1`, `8XY2`, `8XY3` write 0 to VF. -/
inductive LogicVf where
  | zero
  | keep
  deriving DecidableEq, Repr

/-- `Q_MEM_INC` (R7): whether `FX55` and `FX65` advance `I`. -/
inductive MemInc where
  | inc
  | keep
  deriving DecidableEq, Repr

/-- The 80 font bytes (R7, R36). -/
abbrev Font := Vector Byte 80

/-- The named parameters the model takes as arguments (R7). -/
structure Params where
  font           : Font
  ext            : ExtOps
  vfOrder        : VfOrder
  keyOor         : KeyOor
  fbClearOnReset : Bool
  shiftSrc       : ShiftSrc
  logicVf        : LogicVf
  memInc         : MemInc
  deriving DecidableEq, Repr

/-- The default of `FONT`, the table of R36 (glyph 0 first, top row first). -/
def defaultFont : Font := #v[
  0xF0, 0x90, 0x90, 0x90, 0xF0,  0x20, 0x60, 0x20, 0x20, 0x70,
  0xF0, 0x10, 0xF0, 0x80, 0xF0,  0xF0, 0x10, 0xF0, 0x10, 0xF0,
  0x90, 0x90, 0xF0, 0x10, 0x10,  0xF0, 0x80, 0xF0, 0x10, 0xF0,
  0xF0, 0x80, 0xF0, 0x90, 0xF0,  0xF0, 0x10, 0x20, 0x40, 0x40,
  0xF0, 0x90, 0xF0, 0x90, 0xF0,  0xF0, 0x90, 0xF0, 0x10, 0xF0,
  0xF0, 0x90, 0xF0, 0x90, 0x90,  0xE0, 0x90, 0xE0, 0x90, 0xE0,
  0xF0, 0x80, 0x80, 0x80, 0xF0,  0xE0, 0x90, 0x90, 0x90, 0xE0,
  0xF0, 0x80, 0xF0, 0x80, 0xF0,  0xF0, 0x80, 0xF0, 0x80, 0x80]

/-- The defaults of R7, "the normative behaviour of this hardware". -/
def defaults : Params where
  font           := defaultFont
  ext            := noExtOps
  vfOrder        := .tableOrder
  keyOor         := .fault
  fbClearOnReset := true
  shiftSrc       := .vx
  logicVf        := .zero
  memInc         := .inc

/-- The byte that the `n`-th `CXNN` draws (R192: "a model takes `r` as a free input of the step and proves nothing that
depends on its value"). It has no body, so no proof can see a value of it (assumption log 4). -/
opaque drawnByte : Nat → Byte

end Sys2Proof.Config
end

