-- ==== Sys2Proof/Syntax.lean ====
section
/-! DEFINITION. The instructions: one constructor per row of `spec/opcode_table.json`, in the table's order
(`spec/30_encoding.md` R96). Each docstring gives the row's pattern, its assembly and the rule of its meaning. -/

namespace Sys2Proof

/-- The 31 instructions of the document's table (R96 rows 1 to 31) and the four optional ones (rows 32 to 35). -/
inductive Instr where
  /-- `00E0` CLS (R170). -/
  | cls
  /-- `00EE` RET (R120). -/
  | ret
  /-- `1NNN` JP addr (R121). -/
  | jp (nnn : Addr)
  /-- `2NNN` CALL addr (R122). -/
  | call (nnn : Addr)
  /-- `3XNN` SE Vx, byte (R124). -/
  | seImm (x : Reg) (nn : Byte)
  /-- `4XNN` SNE Vx, byte (R125). -/
  | sneImm (x : Reg) (nn : Byte)
  /-- `5XY0` SE Vx, Vy (R126). -/
  | seReg (x y : Reg)
  /-- `9XY0` SNE Vx, Vy (R127). -/
  | sneReg (x y : Reg)
  /-- `6XNN` LD Vx, byte (R141). -/
  | ldImm (x : Reg) (nn : Byte)
  /-- `7XNN` ADD Vx, byte (R142). -/
  | addImm (x : Reg) (nn : Byte)
  /-- `8XY0` LD Vx, Vy (R144). -/
  | ldReg (x y : Reg)
  /-- `8XY1` OR Vx, Vy (R145). -/
  | orReg (x y : Reg)
  /-- `8XY2` AND Vx, Vy (R146). -/
  | andReg (x y : Reg)
  /-- `8XY3` XOR Vx, Vy (R147). -/
  | xorReg (x y : Reg)
  /-- `8XY4` ADD Vx, Vy (R148). -/
  | addReg (x y : Reg)
  /-- `8XY5` SUB Vx, Vy (R149). -/
  | sub (x y : Reg)
  /-- `8XY6` SHR Vx (R150); the word's `Y` field is kept, since `Q_SHIFT_SRC = VY` reads it. -/
  | shr (x y : Reg)
  /-- `8XY7` SUBN Vx, Vy (R151). -/
  | subn (x y : Reg)
  /-- `8XYE` SHL Vx (R152); the word's `Y` field is kept, as for SHR. -/
  | shl (x y : Reg)
  /-- `ANNN` LD I, addr (R160). -/
  | ldI (nnn : Addr)
  /-- `BNNN` JP V0, addr (R123). -/
  | jpV0 (nnn : Addr)
  /-- `DXYN` DRW Vx, Vy, nibble (R172). -/
  | drw (x y : Reg) (n : Nibble)
  /-- `EX9E` SKP Vx (R181). -/
  | skp (x : Reg)
  /-- `EXA1` SKNP Vx (R182). -/
  | sknp (x : Reg)
  /-- `FX07` LD Vx, DT (R184). -/
  | ldVxDt (x : Reg)
  /-- `FX15` LD DT, Vx (R185). -/
  | ldDtVx (x : Reg)
  /-- `FX1E` ADD I, Vx (R161). -/
  | addIVx (x : Reg)
  /-- `FX0A` LD Vx, K (R183). -/
  | ldVxK (x : Reg)
  /-- `FX33` LD B, Vx (R163). -/
  | ldBVx (x : Reg)
  /-- `FX55` LD [I], Vx (R164). -/
  | ldMemVx (x : Reg)
  /-- `FX65` LD Vx, [I] (R165). -/
  | ldVxMem (x : Reg)
  /-- `0NNN` SYS addr (R191), decoded only when `SYS ∈ EXT_OPS`. -/
  | sys (nnn : Addr)
  /-- `CXNN` RND Vx, byte (R192), decoded only when `RND ∈ EXT_OPS`. -/
  | rnd (x : Reg) (nn : Byte)
  /-- `FX18` LD ST, Vx (R193), decoded only when `LD_ST ∈ EXT_OPS`. -/
  | ldStVx (x : Reg)
  /-- `FX29` LD F, Vx (R194), decoded only when `LD_F ∈ EXT_OPS`. -/
  | ldFVx (x : Reg)
  deriving DecidableEq, Repr

end Sys2Proof
end

