-- ==== Sys2Proof/WellFormed.lean ====
section
/-! DEFINITION. Which instruction terms stand for a word of the opcode table, and which the parameter `EXT_OPS` lets
the decoder produce. -/

namespace Sys2Proof

/-- The operand types hold every field to its width, so one check is left: row 32 of `spec/30_encoding.md` R96 gives SYS
the words `0NNN` other than `0x00E0` and `0x00EE`, which are CLS and RET. -/
def Instr.wellFormed : Instr → Bool
  | .cls => true
  | .ret => true
  | .jp _ => true
  | .call _ => true
  | .seImm _ _ => true
  | .sneImm _ _ => true
  | .seReg _ _ => true
  | .sneReg _ _ => true
  | .ldImm _ _ => true
  | .addImm _ _ => true
  | .ldReg _ _ => true
  | .orReg _ _ => true
  | .andReg _ _ => true
  | .xorReg _ _ => true
  | .addReg _ _ => true
  | .sub _ _ => true
  | .shr _ _ => true
  | .subn _ _ => true
  | .shl _ _ => true
  | .ldI _ => true
  | .jpV0 _ => true
  | .drw _ _ _ => true
  | .skp _ => true
  | .sknp _ => true
  | .ldVxDt _ => true
  | .ldDtVx _ => true
  | .addIVx _ => true
  | .ldVxK _ => true
  | .ldBVx _ => true
  | .ldMemVx _ => true
  | .ldVxMem _ => true
  | .sys nnn => nnn != 0x0E0 && nnn != 0x0EE
  | .rnd _ _ => true
  | .ldStVx _ => true
  | .ldFVx _ => true

/-- The gate of `spec/45_optional_ext.md` R190: the four optional instructions exist only when their member of
`EXT_OPS` is enabled; the 31 of the document's table always exist. -/
def Instr.enabled (ext : Config.ExtOps) : Instr → Bool
  | .cls => true
  | .ret => true
  | .jp _ => true
  | .call _ => true
  | .seImm _ _ => true
  | .sneImm _ _ => true
  | .seReg _ _ => true
  | .sneReg _ _ => true
  | .ldImm _ _ => true
  | .addImm _ _ => true
  | .ldReg _ _ => true
  | .orReg _ _ => true
  | .andReg _ _ => true
  | .xorReg _ _ => true
  | .addReg _ _ => true
  | .sub _ _ => true
  | .shr _ _ => true
  | .subn _ _ => true
  | .shl _ _ => true
  | .ldI _ => true
  | .jpV0 _ => true
  | .drw _ _ _ => true
  | .skp _ => true
  | .sknp _ => true
  | .ldVxDt _ => true
  | .ldDtVx _ => true
  | .addIVx _ => true
  | .ldVxK _ => true
  | .ldBVx _ => true
  | .ldMemVx _ => true
  | .ldVxMem _ => true
  | .sys _ => ext.sys
  | .rnd _ _ => ext.rnd
  | .ldStVx _ => ext.ldSt
  | .ldFVx _ => ext.ldF

end Sys2Proof
end

