-- ==== Sys2Proof/Decode.lean ====
section
/-! DEFINITION. The 16-bit instruction word (`spec/30_encoding.md`): its fields (R92), the decoder (R94, R95), the
encoder, and the opcode map's rows (R96). -/

namespace Sys2Proof

/-- Why the decoder answers no instruction. -/
inductive Reject where
  /-- Fewer than the two bytes of an instruction were given (R90: every instruction is exactly 2 bytes). -/
  | truncated (available : Nat)
  /-- The word matches no row of R96 under the given `EXT_OPS` (R98). -/
  | unknownInstruction (w : Word)
  deriving DecidableEq, Repr

/-- `op = w[15:12]` (R92). -/
def opField (w : Word) : Nibble := w.extractLsb' 12 4

/-- `X = w[11:8]` (R92). -/
def xField (w : Word) : Reg := (w.extractLsb' 8 4).toFin

/-- `Y = w[7:4]` (R92). -/
def yField (w : Word) : Reg := (w.extractLsb' 4 4).toFin

/-- `N = w[3:0]` (R92). -/
def nField (w : Word) : Nibble := w.extractLsb' 0 4

/-- `NN = w[7:0]` (R92). -/
def nnField (w : Word) : Byte := w.extractLsb' 0 8

/-- `NNN = w[11:0]` (R92). -/
def nnnField (w : Word) : Addr := w.extractLsb' 0 12

/-- High nibble 0 (R94, R95): the whole word is compared. -/
def decodeOp0 (ext : Config.ExtOps) (w : Word) : Option Instr :=
  if w = 0x00E0 then some .cls
  else if w = 0x00EE then some .ret
  else if ext.sys then some (.sys (nnnField w))
  else none

/-- High nibble 8 (R94): sub-dispatch on the low nibble. -/
def decodeOp8 (w : Word) : Option Instr :=
  match (nField w).toNat with
  | 0x0 => some (.ldReg (xField w) (yField w))
  | 0x1 => some (.orReg (xField w) (yField w))
  | 0x2 => some (.andReg (xField w) (yField w))
  | 0x3 => some (.xorReg (xField w) (yField w))
  | 0x4 => some (.addReg (xField w) (yField w))
  | 0x5 => some (.sub (xField w) (yField w))
  | 0x6 => some (.shr (xField w) (yField w))
  | 0x7 => some (.subn (xField w) (yField w))
  | 0xE => some (.shl (xField w) (yField w))
  | _ => none

/-- High nibble E (R94): sub-dispatch on the low byte. -/
def decodeOpE (w : Word) : Option Instr :=
  match (nnField w).toNat with
  | 0x9E => some (.skp (xField w))
  | 0xA1 => some (.sknp (xField w))
  | _ => none

/-- High nibble F (R94): sub-dispatch on the low byte; `FX18` and `FX29` only under their gates (R190). -/
def decodeOpF (ext : Config.ExtOps) (w : Word) : Option Instr :=
  match (nnField w).toNat with
  | 0x07 => some (.ldVxDt (xField w))
  | 0x0A => some (.ldVxK (xField w))
  | 0x15 => some (.ldDtVx (xField w))
  | 0x1E => some (.addIVx (xField w))
  | 0x33 => some (.ldBVx (xField w))
  | 0x55 => some (.ldMemVx (xField w))
  | 0x65 => some (.ldVxMem (xField w))
  | 0x18 => if ext.ldSt then some (.ldStVx (xField w)) else none
  | 0x29 => if ext.ldF then some (.ldFVx (xField w)) else none
  | _ => none

/-- The rows of R96 that the word `w` selects under `EXT_OPS = ext`: top-level dispatch on the high nibble (R94), whole
patterns matched (R95). -/
def decodeRow (ext : Config.ExtOps) (w : Word) : Option Instr :=
  match (opField w).toNat with
  | 0x0 => decodeOp0 ext w
  | 0x1 => some (.jp (nnnField w))
  | 0x2 => some (.call (nnnField w))
  | 0x3 => some (.seImm (xField w) (nnField w))
  | 0x4 => some (.sneImm (xField w) (nnField w))
  | 0x5 => if nField w = 0 then some (.seReg (xField w) (yField w)) else none
  | 0x6 => some (.ldImm (xField w) (nnField w))
  | 0x7 => some (.addImm (xField w) (nnField w))
  | 0x8 => decodeOp8 w
  | 0x9 => if nField w = 0 then some (.sneReg (xField w) (yField w)) else none
  | 0xA => some (.ldI (nnnField w))
  | 0xB => some (.jpV0 (nnnField w))
  | 0xC => if ext.rnd then some (.rnd (xField w) (nnField w)) else none
  | 0xD => some (.drw (xField w) (yField w) (nField w))
  | 0xE => decodeOpE w
  | 0xF => decodeOpF ext w
  | _ => none

/-- `decode(w)` of R94: an instruction, or `Unknown` carrying the word (R98). It reads nothing but `w` and `EXT_OPS`. -/
def decode (ext : Config.ExtOps) (w : Word) : Except Reject Instr :=
  match decodeRow ext w with
  | some i => .ok i
  | none => .error (.unknownInstruction w)

/-- Big-endian assembly of the word (`spec/20_memory.md` R65): the byte at the lower address is bits 15:8. -/
def wordOfBytes (first second : Byte) : Word := first ++ second

/-- The two bytes of a word at ascending addresses (R65). -/
def bytesOfWord (w : Word) : List Byte := [w.extractLsb' 8 8, w.extractLsb' 0 8]

/-- Decoding any bytes: the first instruction and the bytes after it. -/
def decodeBytes (ext : Config.ExtOps) : List Byte → Except Reject (Instr × List Byte)
  | b0 :: b1 :: rest =>
    match decode ext (wordOfBytes b0 b1) with
    | .ok i => .ok (i, rest)
    | .error r => .error r
  | bs => .error (.truncated bs.length)

/-- Format `NNN` (R91): opcode nibble, 12-bit address. -/
def formNNN (op : Nibble) (nnn : Addr) : Word := op ++ nnn

/-- Format `XNN` (R91): opcode nibble, register, 8-bit immediate. -/
def formXNN (op : Nibble) (x : Reg) (nn : Byte) : Word := op ++ (BitVec.ofFin x : Nibble) ++ nn

/-- Formats `XY` and `XYN` (R91): opcode nibble, two registers, sub-opcode or 4-bit immediate. -/
def formXYN (op : Nibble) (x y : Reg) (n : Nibble) : Word :=
  op ++ (BitVec.ofFin x : Nibble) ++ (BitVec.ofFin y : Nibble) ++ n

/-- The word of an instruction, from the formats of R91 and the match column of R96. -/
def encode : Instr → Word
  | .cls => 0x00E0
  | .ret => 0x00EE
  | .jp nnn => formNNN 0x1 nnn
  | .call nnn => formNNN 0x2 nnn
  | .seImm x nn => formXNN 0x3 x nn
  | .sneImm x nn => formXNN 0x4 x nn
  | .seReg x y => formXYN 0x5 x y 0x0
  | .sneReg x y => formXYN 0x9 x y 0x0
  | .ldImm x nn => formXNN 0x6 x nn
  | .addImm x nn => formXNN 0x7 x nn
  | .ldReg x y => formXYN 0x8 x y 0x0
  | .orReg x y => formXYN 0x8 x y 0x1
  | .andReg x y => formXYN 0x8 x y 0x2
  | .xorReg x y => formXYN 0x8 x y 0x3
  | .addReg x y => formXYN 0x8 x y 0x4
  | .sub x y => formXYN 0x8 x y 0x5
  | .shr x y => formXYN 0x8 x y 0x6
  | .subn x y => formXYN 0x8 x y 0x7
  | .shl x y => formXYN 0x8 x y 0xE
  | .ldI nnn => formNNN 0xA nnn
  | .jpV0 nnn => formNNN 0xB nnn
  | .drw x y n => formXYN 0xD x y n
  | .skp x => formXNN 0xE x 0x9E
  | .sknp x => formXNN 0xE x 0xA1
  | .ldVxDt x => formXNN 0xF x 0x07
  | .ldDtVx x => formXNN 0xF x 0x15
  | .addIVx x => formXNN 0xF x 0x1E
  | .ldVxK x => formXNN 0xF x 0x0A
  | .ldBVx x => formXNN 0xF x 0x33
  | .ldMemVx x => formXNN 0xF x 0x55
  | .ldVxMem x => formXNN 0xF x 0x65
  | .sys nnn => formNNN 0x0 nnn
  | .rnd x nn => formXNN 0xC x nn
  | .ldStVx x => formXNN 0xF x 0x18
  | .ldFVx x => formXNN 0xF x 0x29

/-- One row of the opcode map (R96): a word `w` selects it when `w &&& mask = pattern`. -/
structure OpcodeRow where
  number  : Nat
  mask    : Word
  pattern : Word
  deriving DecidableEq, Repr

/-- The row of R96 that an instruction stands for, with the map's own mask and match columns. -/
def Instr.row : Instr → OpcodeRow
  | .cls => ⟨1, 0xFFFF, 0x00E0⟩
  | .ret => ⟨2, 0xFFFF, 0x00EE⟩
  | .jp _ => ⟨3, 0xF000, 0x1000⟩
  | .call _ => ⟨4, 0xF000, 0x2000⟩
  | .seImm _ _ => ⟨5, 0xF000, 0x3000⟩
  | .sneImm _ _ => ⟨6, 0xF000, 0x4000⟩
  | .seReg _ _ => ⟨7, 0xF00F, 0x5000⟩
  | .sneReg _ _ => ⟨8, 0xF00F, 0x9000⟩
  | .ldImm _ _ => ⟨9, 0xF000, 0x6000⟩
  | .addImm _ _ => ⟨10, 0xF000, 0x7000⟩
  | .ldReg _ _ => ⟨11, 0xF00F, 0x8000⟩
  | .orReg _ _ => ⟨12, 0xF00F, 0x8001⟩
  | .andReg _ _ => ⟨13, 0xF00F, 0x8002⟩
  | .xorReg _ _ => ⟨14, 0xF00F, 0x8003⟩
  | .addReg _ _ => ⟨15, 0xF00F, 0x8004⟩
  | .sub _ _ => ⟨16, 0xF00F, 0x8005⟩
  | .shr _ _ => ⟨17, 0xF00F, 0x8006⟩
  | .subn _ _ => ⟨18, 0xF00F, 0x8007⟩
  | .shl _ _ => ⟨19, 0xF00F, 0x800E⟩
  | .ldI _ => ⟨20, 0xF000, 0xA000⟩
  | .jpV0 _ => ⟨21, 0xF000, 0xB000⟩
  | .drw _ _ _ => ⟨22, 0xF000, 0xD000⟩
  | .skp _ => ⟨23, 0xF0FF, 0xE09E⟩
  | .sknp _ => ⟨24, 0xF0FF, 0xE0A1⟩
  | .ldVxDt _ => ⟨25, 0xF0FF, 0xF007⟩
  | .ldDtVx _ => ⟨26, 0xF0FF, 0xF015⟩
  | .addIVx _ => ⟨27, 0xF0FF, 0xF01E⟩
  | .ldVxK _ => ⟨28, 0xF0FF, 0xF00A⟩
  | .ldBVx _ => ⟨29, 0xF0FF, 0xF033⟩
  | .ldMemVx _ => ⟨30, 0xF0FF, 0xF055⟩
  | .ldVxMem _ => ⟨31, 0xF0FF, 0xF065⟩
  | .sys _ => ⟨32, 0xF000, 0x0000⟩
  | .rnd _ _ => ⟨33, 0xF000, 0xC000⟩
  | .ldStVx _ => ⟨34, 0xF0FF, 0xF018⟩
  | .ldFVx _ => ⟨35, 0xF0FF, 0xF029⟩

/-- `ext` with the member enabled that row 32 to 35 needs for `i` (R190): a member is needed exactly when `i` does not
exist without it. For the other 31 rows it is `ext` itself. -/
def enableFor (ext : Config.ExtOps) (i : Instr) : Config.ExtOps where
  sys  := ext.sys || !i.enabled { Config.allExtOps with sys := false }
  rnd  := ext.rnd || !i.enabled { Config.allExtOps with rnd := false }
  ldSt := ext.ldSt || !i.enabled { Config.allExtOps with ldSt := false }
  ldF  := ext.ldF || !i.enabled { Config.allExtOps with ldF := false }

/-- The bytes in memory of a table word: `w` cut to its `nbits` bits, laid out big-endian (R65). -/
def tableBytes (nbits w : Nat) : List Byte := bytesOfWord (BitVec.ofNat 16 (w % 2 ^ nbits))

/-- The instruction the decoder reads from the opcode-table word `w`. Every row of the table is asked for, the four
optional ones too, so the decoder runs with every member of `EXT_OPS` enabled (assumption log 12). -/
def decodeTableWord (nbits w : Nat) : Option Instr :=
  match decodeBytes Config.allExtOps (tableBytes nbits w) with
  | .ok (i, _) => some i
  | .error _ => none

end Sys2Proof
end

