-- ==== Sys2Proof/Machine/State.lean ====
section
/-! DEFINITION. The state of the machine as plain data (`spec/10_state.md` R20), the reasons a step can stop, and the
state after reset (R43). -/

namespace Sys2Proof.Machine

/-- The reasons the model itself can stop with. There is none: each of the five kinds of fault of the spec is an event
whose entry the spec describes (`spec/60_exceptions.md` R202), so it is a next state with the fault latched, from which
timer steps and `reset` still go on (R214, R250). A machine that never stops is exact, neither safe nor unsafe. -/
inductive Fault : Type
  deriving DecidableEq, Repr

/-- The reasons the model has no meaning for an instruction. -/
inductive Refusal where
  /-- Raised only by an arm of `exec` for an instruction not modelled yet (safe: the step gives no next state). No arm
  raises it now. -/
  | notModelled (mnemonic : String)
  deriving DecidableEq, Repr

/-- A fault's kind with its payload, the columns `kind` and `info` of R201. -/
inductive FaultCause where
  /-- Code 1: the first address and the length of the rejected access (R203). -/
  | addressingError (addr n : Nat)
  /-- Code 2: the fetched word (R204). -/
  | unknownInstruction (w : Word)
  /-- Code 3 (R205). -/
  | stackUnderflow
  /-- Code 4 (R206). -/
  | stackOverflow
  /-- Code 5: the value of `V[X]` (R207). -/
  | keyIndexError (v : Byte)
  deriving DecidableEq, Repr

/-- The record latched in `FAULT` (R35, R201): `(kind, pc, info)`. -/
structure FaultRecord where
  cause : FaultCause
  pc    : Word
  deriving DecidableEq, Repr

/-- `RUN` (R33), the executor's run state. -/
inductive RunState where
  /-- The normal state. -/
  | running
  /-- Waiting for a key to go down; `x` receives its number (R183). -/
  | waitPress (x : Reg)
  /-- Waiting for key `k` to go up; `x` receives `k` (R186). -/
  | waitRelease (x : Reg) (k : Key)
  /-- Entered by any fault and left only by reset (R202). -/
  | faulted
  deriving DecidableEq, Repr

/-- The input events of `spec/00_scope.md` R8 and R9: the ticks of the two clocks and the host's moves. -/
inductive Input where
  /-- One tick of the instruction clock: one executor step (`spec/60_exceptions.md` R210). -/
  | instrTick
  /-- One tick of the 60 Hz timer clock (R217). -/
  | timerTick
  /-- The host presses or releases one logical key (R228). -/
  | setKey (k : Key) (pressed : Bool)
  /-- The host starts or stops the timer clock (R218). -/
  | setTimerEn (on : Bool)
  /-- The renderer clears the dirty flag (R226). -/
  | fbAck
  /-- The host reboots the core with a ROM (`spec/70_reset_and_hazards.md` R250). -/
  | reset (rom : List Byte)
  /-- The host changes the instruction clock's rate, which "changes no state of the core" (R230). -/
  | setInstrHz (hz : Nat)
  deriving DecidableEq, Repr

/-- 32 rows of 64 pixels, `FB[y][x]` (R38). -/
abbrev FrameBuffer := Vector (Vector Bool 64) 32

/-- Everything R20 lists, and the three fields of the model's own after `timerEn`. -/
structure State where
  /-- `V[0..15]` (R21). -/
  v       : Vector Byte 16
  /-- `I` (R27). -/
  i       : Word
  /-- `PC` (R23). -/
  pc      : Word
  /-- `STACK[0..15]` (R28), entries at `SP` and above stale. -/
  stack   : Vector Word 16
  /-- `SP` (R28): the number of valid entries, 0 to 16. -/
  sp      : Fin 17
  /-- `DT` (R31). -/
  dt      : Byte
  /-- `ST` (R32). -/
  st      : Byte
  /-- `MEM[0..4095]` (R37): the bytes that differ from the reset content, by rising address (assumption log 5). -/
  mem     : List Host.Cell
  /-- `RUN` (R33). -/
  run     : RunState
  /-- `IR` (R34). -/
  ir      : Word
  /-- `FAULT` (R35). -/
  fault   : Option FaultRecord
  /-- `FB` (R38). -/
  fb      : FrameBuffer
  /-- `FB_DIRTY` (R38, R226). -/
  fbDirty : Bool
  /-- `KEYS[0..15]` (R39), true = pressed. -/
  keys    : Vector Bool 16
  /-- `timer_en` (R31, R218). -/
  timerEn : Bool
  /-- The parameters of R7, which no step changes (assumption log 1). -/
  cfg     : Config.Params
  /-- The input events still to come, first one next; when none is left every step is an `instrTick` (assumption
  log 2). -/
  inputs  : List Input
  /-- How many bytes `CXNN` has drawn (assumption log 4). -/
  draws   : Nat
  deriving DecidableEq, Repr

/-- The state after reset (R43) with an empty ROM and the default parameters. The spec gives no value for `KEYS` and
`timer_en`, which are the host's; the values here are named in assumption log 3. -/
def State.reset : State where
  v       := Vector.replicate 16 0x00
  i       := 0x0000
  pc      := Config.pcReset
  stack   := Vector.replicate 16 0x0000
  sp      := 0
  dt      := 0x00
  st      := 0x00
  mem     := []
  run     := .running
  ir      := 0x0000
  fault   := none
  fb      := Vector.replicate 32 (Vector.replicate 64 false)
  fbDirty := true
  keys    := Vector.replicate 16 false
  timerEn := false
  cfg     := Config.defaults
  inputs  := []
  draws   := 0

end Sys2Proof.Machine
end

