-- ==== Sys2Proof/Machine/Ops.lean ====
section
/-! DEFINITION. The named operations over registers, memory, the call stack, the framebuffer, the keys and the timers
(`spec/00_scope.md` R12), taking a fault (`spec/60_exceptions.md` R202), and the way back from one, which is reset
(`spec/70_reset_and_hazards.md` R250). -/

namespace Sys2Proof.Machine

/-! ### Registers -/

/-- `V[x]` (R12, R21). -/
def State.reg (s : State) (x : Reg) : Byte := s.v[x]

/-- `V[x] <- b`: no register is hardwired (R21). -/
def State.setReg (s : State) (x : Reg) (b : Byte) : State := { s with v := s.v.set x b }

/-- VF, the register `V[15]` (R13, R22). -/
abbrev vf : Reg := 15

/-- `I <- w`. -/
def State.setI (s : State) (w : Word) : State := { s with i := w }

/-- `PC <- w`. -/
def State.setPc (s : State) (w : Word) : State := { s with pc := w }

/-- `RUN <- r`. -/
def State.setRun (s : State) (r : RunState) : State := { s with run := r }

/-- `skip` (R12): 2 more on the already advanced `PC` (R25). -/
def State.skip (s : State) : State := s.setPc (s.pc + 2)

/-- Skip the next instruction when the condition holds: the six skips (R25). -/
def State.skipIf (s : State) (cond : Bool) : State := if cond then s.skip else s

/-- What a fetch leaves (R210): `IR` holds the word and `PC` is `pc0 + 2` (R24). -/
def State.fetched (s : State) (w : Word) : State := { s with ir := w, pc := s.pc + 2 }

/-! ### Memory -/

/-- What an address that the memory does not list reads as: the reset content of R43 and R61, which is the font table in
0x050 to 0x09F (R36) and zero elsewhere. -/
def unlistedByte (font : Config.Font) (a : Nat) : Byte :=
  if h : Config.fontBase ≤ a ∧ a < Config.fontBase + Config.fontLen then font[a - Config.fontBase]'(by grind) else 0x00

/-- The listed byte at address `a`, if there is one. -/
def Memory.find (m : List Host.Cell) (a : Nat) : Option Byte :=
  match m with
  | [] => none
  | c :: rest => if c.1 = a then some c.2 else Memory.find rest a

/-- List the byte `b` at `a`, keeping the addresses in rising order. -/
def Memory.insert (m : List Host.Cell) (a : Nat) (b : Byte) : List Host.Cell :=
  match m with
  | [] => [(a, b)]
  | c :: rest =>
    if a < c.1 then (a, b) :: c :: rest
    else if c.1 = a then (a, b) :: rest
    else c :: Memory.insert rest a b

/-- Remove the entry of `a`. -/
def Memory.erase (m : List Host.Cell) (a : Nat) : List Host.Cell := m.filter fun c => c.1 != a

/-- `MEM[a]`. -/
def Memory.read (font : Config.Font) (m : List Host.Cell) (a : Nat) : Byte :=
  (Memory.find m a).getD (unlistedByte font a)

/-- `MEM[a] <- b`: writing what an unlisted address reads as removes the entry. -/
def Memory.write (font : Config.Font) (m : List Host.Cell) (a : Nat) (b : Byte) : List Host.Cell :=
  if b = unlistedByte font a then Memory.erase m a else Memory.insert m a b

/-- `MEM[a + j] <- bytes[j]` for every `j` (R63). -/
def Memory.writeAll (font : Config.Font) (m : List Host.Cell) (a : Nat) (bytes : List Byte) : List Host.Cell :=
  match bytes with
  | [] => m
  | b :: bs => Memory.writeAll font (Memory.write font m a b) (a + 1) bs

/-- The canonical form from address `lo` up: addresses rising, inside the 4096 bytes, and no entry equal to what an
unlisted address reads as. -/
def Memory.wfFrom (font : Config.Font) (lo : Nat) (m : List Host.Cell) : Bool :=
  match m with
  | [] => true
  | c :: rest =>
    decide (lo ≤ c.1) && decide (c.1 < Config.memSize) && c.2 != unlistedByte font c.1
      && Memory.wfFrom font (c.1 + 1) rest

/-- The memory is in canonical form. -/
def Memory.wf (font : Config.Font) (m : List Host.Cell) : Bool := Memory.wfFrom font 0 m

/-- `MEM[a]` of a state. -/
def State.byteAt (s : State) (a : Nat) : Byte := Memory.read s.cfg.font s.mem a

/-- `MemRead(addr, n)` (R62): the bounds check is on unbounded integers. -/
def memRead (s : State) (addr n : Nat) : Except FaultCause (List Byte) :=
  if Config.memSize < addr + n then .error (.addressingError addr n)
  else .ok ((List.range n).map fun j => s.byteAt (addr + j))

/-- The state with `bytes` stored from `addr` up. -/
def State.store (s : State) (addr : Nat) (bytes : List Byte) : State :=
  { s with mem := Memory.writeAll s.cfg.font s.mem addr bytes }

/-- `MemWrite(addr, n, bytes)` (R63): the whole write is checked before any byte is written. -/
def memWrite (s : State) (addr : Nat) (bytes : List Byte) : Except FaultCause State :=
  if Config.memSize < addr + bytes.length then .error (.addressingError addr bytes.length)
  else .ok (s.store addr bytes)

/-! ### The call stack -/

/-- `push(w)` (R29). -/
def push (s : State) (w : Word) : Except FaultCause State :=
  if h : s.sp.val < 16 then
    .ok { s with stack := s.stack.set s.sp.val w h, sp := ⟨s.sp.val + 1, by omega⟩ }
  else .error .stackOverflow

/-- `pop()` (R30): the released entry and the state with `SP` one less; the entry stays as stale data. -/
def pop (s : State) : Except FaultCause (Word × State) :=
  if h : s.sp.val = 0 then .error .stackUnderflow
  else .ok (s.stack[s.sp.val - 1]'(by omega), { s with sp := ⟨s.sp.val - 1, by omega⟩ })

/-! ### Taking a fault, and leaving it -/

/-- `raise E(info)` (`spec/60_exceptions.md` R202): `FAULT` and `RUN` are written and `PC` is the address `pc0` of the
faulting step. Every caller applies it to a state that holds no effect of the step but `IR` and the advanced `PC`. -/
def raise (e : FaultCause) (pc0 : Word) (s : State) : State :=
  { s with pc := pc0, fault := some ⟨e, pc0⟩, run := .faulted }

/-- `pc0` as an executing instruction sees it: `PC` already holds `pc0 + 2` (R24). -/
def State.instrAddr (s : State) : Word := s.pc - 2

/-- The fault of an executing instruction: `s` is the state the instruction began in. -/
def raiseInstr (e : FaultCause) (s : State) : State := raise e s.instrAddr s

/-- The integer code of a fault's kind (R201). -/
def FaultCause.code : FaultCause → Nat
  | .addressingError _ _ => 1
  | .unknownInstruction _ => 2
  | .stackUnderflow => 3
  | .stackOverflow => 4
  | .keyIndexError _ => 5

/-- A framebuffer with every pixel 0. -/
def blankScreen : FrameBuffer := Vector.replicate 32 (Vector.replicate 64 false)

/-- The state of `reset(rom)` (`spec/70_reset_and_hazards.md` R250) before the ROM is loaded. An empty cell list is a
memory of zeros with the font in place (R251). What R253 says reset leaves alone is left alone. -/
def bootBlank (s : State) : State :=
  { s with
    mem := [], v := Vector.replicate 16 0x00, i := 0x0000, pc := Config.pcReset
    sp := 0, stack := Vector.replicate 16 0x0000, dt := 0x00, st := 0x00
    ir := 0x0000, run := .running, fault := none
    fb := if s.cfg.fbClearOnReset then blankScreen else s.fb
    fbDirty := true }

/-- `reset(rom)` (R250), the only way out of a fault (`spec/60_exceptions.md` R212): a ROM that does not fit leaves the
core faulted with nothing of it loaded (R252). -/
def boot (rom : List Byte) (s : State) : State :=
  match memWrite (bootBlank s) Config.romBase rom with
  | .ok t => t
  | .error e => raise e Config.pcReset (bootBlank s)

/-! ### Framebuffer, keys, timers -/

/-- `FB[y][x]`, the get-pixel of `spec/60_exceptions.md` R225. -/
def State.pixel (s : State) (y : Fin 32) (x : Fin 64) : Bool := s.fb[y][x]

/-- `FB` replaced by `fb` and `FB_DIRTY` set, as every executed `00E0` and `DXYN` does (R226). -/
def State.setScreen (s : State) (fb : FrameBuffer) : State := { s with fb := fb, fbDirty := true }

/-- `FB_DIRTY <- 0`, the host's `fb_ack` (R226). -/
def State.clearDirty (s : State) : State := { s with fbDirty := false }

/-- The is-pressed query (R228). -/
def State.pressed (s : State) (k : Key) : Bool := s.keys[k]

/-- The host's press and release (R228). -/
def State.setKey (s : State) (k : Key) (down : Bool) : State := { s with keys := s.keys.set k down }

/-- The first-pressed-key query (R228): the lowest pressed key. -/
def State.firstPressed (s : State) : Option Key := (List.finRange 16).find? fun k => s.pressed k

/-- `DT <- b`: writing replaces the value outright (R31). -/
def State.setDt (s : State) (b : Byte) : State := { s with dt := b }

/-- `ST <- b` (R216). -/
def State.setSt (s : State) (b : Byte) : State := { s with st := b }

/-- `timer_en <- on` (R218). -/
def State.setTimerEn (s : State) (on : Bool) : State := { s with timerEn := on }

/-- One decrement, saturating at 0 (R217). -/
def countDown (b : Byte) : Byte := if b = 0 then 0 else b - 1

/-- The timer step (R217): both timers, only while `timer_en` is 1. -/
def timerStep (s : State) : State :=
  if s.timerEn then (s.setDt (countDown s.dt)).setSt (countDown s.st) else s

/-- Use up one drawn byte (R192). -/
def State.countDraw (s : State) : State := { s with draws := s.draws + 1 }

/-- The input events after the one being handled. -/
def State.setInputs (s : State) (rest : List Input) : State := { s with inputs := rest }

end Sys2Proof.Machine
end

