-- ==== Sys2Proof/Machine/Operands.lean ====
section
/-! DEFINITION. What the instructions compute from their operands: targets, shift sources, key levels, register ranges,
decimal digits and sprite pixels. -/

namespace Sys2Proof.Machine

/-- `zext_16(NNN)` (`spec/30_encoding.md` R93). -/
def zextAddr (nnn : Addr) : Word := nnn.zeroExtend 16

/-- A register's byte as a 16-bit word. -/
def zextByte (b : Byte) : Word := b.zeroExtend 16

/-- `V[0] + NNN` held in 16 bits (`spec/40_control_flow.md` R123). -/
def jumpV0Target (s : State) (nnn : Addr) : Word := zextByte (s.reg 0) + zextAddr nnn

/-- The shift source (`spec/41_load_alu.md` R150, R152): `V[X]`, or `V[Y]` under `Q_SHIFT_SRC = VY`. -/
def shiftSource (s : State) (x y : Reg) : Byte :=
  match s.cfg.shiftSrc with
  | .vx => s.reg x
  | .vy => s.reg y

/-- `keyval(v)` (`spec/44_keypad_timers.md` R180): the level of key `v`, or the `KEY_OOR` behaviour above 0xF. -/
def keyLevel (s : State) (v : Byte) : Except FaultCause Bool :=
  if h : v.toNat < 16 then .ok (s.pressed ⟨v.toNat, h⟩)
  else
    match s.cfg.keyOor with
    | .fault => .error (.keyIndexError v)
    | .mask4 => .ok (s.pressed ⟨v.toNat % 16, Nat.mod_lt _ (by decide)⟩)
    | .notPressed => .ok false

/-- `[V[0], …, V[X]]`, the bytes that `FX55` stores (`spec/42_index_memory.md` R164). -/
def regRange (s : State) (x : Reg) : List Byte := s.v.toList.take (x.val + 1)

/-- The register file with `V[j] <- bytes[j]` for `j` in 0 .. X (R165); the registers above `V[X]` stay. -/
def loadedRegs (v : Vector Byte 16) (x : Reg) (bytes : List Byte) : Vector Byte 16 :=
  Vector.ofFn fun j => if j.val ≤ x.val then bytes.getD j.val 0 else v[j]

/-- The state with that register file. -/
def loadRange (s : State) (x : Reg) (bytes : List Byte) : State := { s with v := loadedRegs s.v x bytes }

/-- `I` after `FX55` and `FX65`: `I + X + 1`, or `I` itself under `Q_MEM_INC = keep` (R164, R165). -/
def indexAfterTransfer (s : State) (x : Reg) : Word :=
  match s.cfg.memInc with
  | .inc => s.i + BitVec.ofNat 16 (x.val + 1)
  | .keep => s.i

/-- The hundreds, tens and ones of an unsigned byte (R163). -/
def decimalDigits (v : Byte) : List Byte :=
  [BitVec.ofNat 8 (v.toNat / 100), BitVec.ofNat 8 (v.toNat / 10 % 10), BitVec.ofNat 8 (v.toNat % 10)]

/-- `FONT_BASE + 5 · (V[X] & 0xF)` (`spec/45_optional_ext.md` R194). -/
def glyphAddr (v : Byte) : Word := BitVec.ofNat 16 (Config.fontBase + 5 * (v &&& 0x0F).toNat)

/-- The sprite's column: `V[X] mod 64` (`spec/43_display.md` R171). -/
def spriteColumn (v : Byte) : Nat := v.toNat % 64

/-- The sprite's row: `V[Y] mod 32` (R171). -/
def spriteRow (v : Byte) : Nat := v.toNat % 32

/-- Whether the sprite `rows` placed with its top-left corner at column `x0`, row `y0` has its bit set at row `y`, column
`x` of the screen: bit 7 of a row's byte is its leftmost pixel (R171), and what falls outside the screen is asked for by
no `y`, `x`, so it is clipped. -/
def spriteBit (rows : List Byte) (x0 y0 : Nat) (y : Fin 32) (x : Fin 64) : Bool :=
  decide (y0 ≤ y.val ∧ y.val < y0 + rows.length ∧ x0 ≤ x.val ∧ x.val < x0 + 8)
    && (rows.getD (y.val - y0) 0).getLsbD (7 - (x.val - x0))

/-- The screen with the sprite XORed in (R172). Each sprite pixel maps to a different screen pixel, so the order of the
loops does not matter (R172 (h)). -/
def drawSprite (fb : FrameBuffer) (rows : List Byte) (x0 y0 : Nat) : FrameBuffer :=
  Vector.ofFn fun y => Vector.ofFn fun x => fb[y][x] ^^ spriteBit rows x0 y0 y x

/-- `hit` of R172: some pixel that was on is under a set sprite bit, across the whole sprite. -/
def spriteHits (fb : FrameBuffer) (rows : List Byte) (x0 y0 : Nat) : Bool :=
  (List.finRange 32).any fun y => (List.finRange 64).any fun x => spriteBit rows x0 y0 y x && fb[y][x]

end Sys2Proof.Machine
end

