-- ==== Sys2Proof/Machine/Flags.lean ====
section
/-! DEFINITION. The values VF receives (`spec/10_state.md` R40) and the order in which an instruction's two register
writes land (`spec/41_load_alu.md` R140). -/

namespace Sys2Proof.Machine

/-- A flag as the byte VF holds. -/
def flagByte (b : Bool) : Byte := if b then 1 else 0

/-- Carry out of bit 7 (R143, R148): `a + b ≥ 256` on integers. -/
def carry (a b : Byte) : Bool := decide (256 ≤ a.toNat + b.toNat)

/-- No borrow in `a − b` (R143, R149): `a ≥ b`, equality included. -/
def noBorrow (a b : Byte) : Bool := decide (b.toNat ≤ a.toNat)

/-- Bit 0 before a right shift (R150). -/
def shiftedOutRight (a : Byte) : Bool := a.getLsbD 0

/-- Bit 7 before a left shift (R152). -/
def shiftedOutLeft (a : Byte) : Bool := a.getLsbD 7

/-- The instructions whose row lists `VX ← …` before `VF ← …`: under both values of `VF_ORDER` the flag is the later
write (R140). -/
def writeResultThenFlag (s : State) (x : Reg) (result flag : Byte) : State := (s.setReg x result).setReg vf flag

/-- The instructions whose row lists `VF ← …` before `VX ← …`, the two shifts: under `table_order` the result is the
later write, under `flag_last` the flag (R140). -/
def writeFlagThenResult (s : State) (x : Reg) (result flag : Byte) : State :=
  match s.cfg.vfOrder with
  | .tableOrder => (s.setReg vf flag).setReg x result
  | .flagLast => (s.setReg x result).setReg vf flag

/-- The three logic instructions: VF becomes 0, or is left alone under `Q_LOGIC_VF = keep` (R145 to R147). -/
def writeLogicResult (s : State) (x : Reg) (result : Byte) : State :=
  match s.cfg.logicVf with
  | .zero => writeResultThenFlag s x result 0
  | .keep => s.setReg x result

end Sys2Proof.Machine
end

