-- ==== Sys2Proof/Machine/ControlFlow.lean ====
section
/-! DEFINITION. RET, JP, CALL, JP V0 and the four register skips (`spec/40_control_flow.md`). In every meaning `PC`
already holds `pc0 + 2` (`spec/10_state.md` R24). -/

namespace Sys2Proof.Machine

/-- R120: `PC <- pop()`. -/
def execRet (s : State) : Host.Outcome State Fault Refusal :=
  match pop s with
  | .ok (w, t) => .next (t.setPc w)
  | .error e => .next (raiseInstr e s)

/-- R121: `PC <- zext_16(NNN)`. -/
def execJp (nnn : Addr) (s : State) : Host.Outcome State Fault Refusal := .next (s.setPc (zextAddr nnn))

/-- R122: `push(PC); PC <- zext_16(NNN)`. -/
def execCall (nnn : Addr) (s : State) : Host.Outcome State Fault Refusal :=
  match push s s.pc with
  | .ok t => .next (t.setPc (zextAddr nnn))
  | .error e => .next (raiseInstr e s)

/-- R123: `PC <- V[0] + NNN`. -/
def execJpV0 (nnn : Addr) (s : State) : Host.Outcome State Fault Refusal := .next (s.setPc (jumpV0Target s nnn))

/-- R124: skip if `V[X] = NN`. -/
def execSeImm (x : Reg) (nn : Byte) (s : State) : Host.Outcome State Fault Refusal :=
  .next (s.skipIf (s.reg x == nn))

/-- R125: skip if `V[X] ≠ NN`. -/
def execSneImm (x : Reg) (nn : Byte) (s : State) : Host.Outcome State Fault Refusal :=
  .next (s.skipIf (s.reg x != nn))

/-- R126: skip if `V[X] = V[Y]`. -/
def execSeReg (x y : Reg) (s : State) : Host.Outcome State Fault Refusal := .next (s.skipIf (s.reg x == s.reg y))

/-- R127: skip if `V[X] ≠ V[Y]`. -/
def execSneReg (x y : Reg) (s : State) : Host.Outcome State Fault Refusal := .next (s.skipIf (s.reg x != s.reg y))

end Sys2Proof.Machine
end

