-- ==== Sys2Proof/Machine/Display.lean ====
section
/-! DEFINITION. CLS and DRW (`spec/43_display.md`). -/

namespace Sys2Proof.Machine

/-- R170: every pixel 0, `FB_DIRTY` set. -/
def execCls (s : State) : Host.Outcome State Fault Refusal := .next (s.setScreen blankScreen)

/-- R172: XOR the `N` sprite rows at `I` onto the screen at (`V[X]` mod 64, `V[Y]` mod 32), clipped; VF is the collision
flag of the whole sprite. The bounds check covers all `N` rows and comes before any effect. -/
def execDrw (x y : Reg) (n : Nibble) (s : State) : Host.Outcome State Fault Refusal :=
  match memRead s s.i.toNat n.toNat with
  | .ok rows =>
    .next ((s.setScreen (drawSprite s.fb rows (spriteColumn (s.reg x)) (spriteRow (s.reg y)))).setReg vf
      (flagByte (spriteHits s.fb rows (spriteColumn (s.reg x)) (spriteRow (s.reg y)))))
  | .error e => .next (raiseInstr e s)

end Sys2Proof.Machine
end

