-- ==== Sys2Proof/Machine/IndexMemory.lean ====
section
/-! DEFINITION. The index register and the memory transfers (`spec/42_index_memory.md`). The effective address of byte
`j` is `I + j` on unbounded integers (R162; `spec/20_memory.md` R78). -/

namespace Sys2Proof.Machine

/-- R160: `I <- zext_16(NNN)`. -/
def execLdI (nnn : Addr) (s : State) : Host.Outcome State Fault Refusal := .next (s.setI (zextAddr nnn))

/-- R161: `I <- (I + V[X]) mod 65536`, no flag. -/
def execAddIVx (x : Reg) (s : State) : Host.Outcome State Fault Refusal := .next (s.setI (s.i + zextByte (s.reg x)))

/-- R163: the decimal digits of `V[X]` to the three bytes at `I`; `I` stays. -/
def execLdBVx (x : Reg) (s : State) : Host.Outcome State Fault Refusal :=
  match memWrite s s.i.toNat (decimalDigits (s.reg x)) with
  | .ok t => .next t
  | .error e => .next (raiseInstr e s)

/-- R164: `V[0] … V[X]` to the bytes at `I`; `I` advances by `X + 1`. -/
def execLdMemVx (x : Reg) (s : State) : Host.Outcome State Fault Refusal :=
  match memWrite s s.i.toNat (regRange s x) with
  | .ok t => .next (t.setI (indexAfterTransfer s x))
  | .error e => .next (raiseInstr e s)

/-- R165: `V[0] … V[X]` from the bytes at `I`; `I` advances by `X + 1`. -/
def execLdVxMem (x : Reg) (s : State) : Host.Outcome State Fault Refusal :=
  match memRead s s.i.toNat (x.val + 1) with
  | .ok bytes => .next ((loadRange s x bytes).setI (indexAfterTransfer s x))
  | .error e => .next (raiseInstr e s)

end Sys2Proof.Machine
end

