-- ==== Sys2Proof/Machine/KeypadTimers.lean ====
section
/-! DEFINITION. The key skips, the key wait and the delay timer (`spec/44_keypad_timers.md`). The wait steps that follow
FX0A are in `Sys2Proof/Machine/Executor.lean`. -/

namespace Sys2Proof.Machine

/-- R181: skip if key `V[X]` is pressed. -/
def execSkp (x : Reg) (s : State) : Host.Outcome State Fault Refusal :=
  match keyLevel s (s.reg x) with
  | .ok down => .next (s.skipIf down)
  | .error e => .next (raiseInstr e s)

/-- R182: skip if key `V[X]` is not pressed. -/
def execSknp (x : Reg) (s : State) : Host.Outcome State Fault Refusal :=
  match keyLevel s (s.reg x) with
  | .ok down => .next (s.skipIf (!down))
  | .error e => .next (raiseInstr e s)

/-- R184: `V[X] <- DT`. -/
def execLdVxDt (x : Reg) (s : State) : Host.Outcome State Fault Refusal := .next (s.setReg x s.dt)

/-- R185: `DT <- V[X]`. -/
def execLdDtVx (x : Reg) (s : State) : Host.Outcome State Fault Refusal := .next (s.setDt (s.reg x))

/-- R183: `RUN <- WaitPress(X)` and nothing else; the keys are not sampled in this step. -/
def execLdVxK (x : Reg) (s : State) : Host.Outcome State Fault Refusal := .next (s.setRun (.waitPress x))

end Sys2Proof.Machine
end

