-- ==== Sys2Proof/Machine/LoadAlu.lean ====
section
/-! DEFINITION. Register loads and the arithmetic-logic instructions (`spec/41_load_alu.md`). Every operand is read from
the state the instruction began in (R140); none of these instructions can fault. -/

namespace Sys2Proof.Machine

/-- R141: `V[X] <- NN`. -/
def execLdImm (x : Reg) (nn : Byte) (s : State) : Host.Outcome State Fault Refusal := .next (s.setReg x nn)

/-- R142: `V[X] <- (V[X] + NN) mod 256`, no flag. -/
def execAddImm (x : Reg) (nn : Byte) (s : State) : Host.Outcome State Fault Refusal :=
  .next (s.setReg x (s.reg x + nn))

/-- R144: `V[X] <- V[Y]`. -/
def execLdReg (x y : Reg) (s : State) : Host.Outcome State Fault Refusal := .next (s.setReg x (s.reg y))

/-- R145: `V[X] <- V[X] | V[Y]; VF <- 0`. -/
def execOrReg (x y : Reg) (s : State) : Host.Outcome State Fault Refusal :=
  .next (writeLogicResult s x (s.reg x ||| s.reg y))

/-- R146: `V[X] <- V[X] & V[Y]; VF <- 0`. -/
def execAndReg (x y : Reg) (s : State) : Host.Outcome State Fault Refusal :=
  .next (writeLogicResult s x (s.reg x &&& s.reg y))

/-- R147: `V[X] <- V[X] ^ V[Y]; VF <- 0`. -/
def execXorReg (x y : Reg) (s : State) : Host.Outcome State Fault Refusal :=
  .next (writeLogicResult s x (s.reg x ^^^ s.reg y))

/-- R148: `V[X] <- (V[X] + V[Y]) mod 256; VF <- carry`. -/
def execAddReg (x y : Reg) (s : State) : Host.Outcome State Fault Refusal :=
  .next (writeResultThenFlag s x (s.reg x + s.reg y) (flagByte (carry (s.reg x) (s.reg y))))

/-- R149: `V[X] <- (V[X] − V[Y]) mod 256; VF <- no borrow`. -/
def execSub (x y : Reg) (s : State) : Host.Outcome State Fault Refusal :=
  .next (writeResultThenFlag s x (s.reg x - s.reg y) (flagByte (noBorrow (s.reg x) (s.reg y))))

/-- R150: `VF <- a & 1; V[X] <- a >> 1`. -/
def execShr (x y : Reg) (s : State) : Host.Outcome State Fault Refusal :=
  .next (writeFlagThenResult s x (shiftSource s x y >>> 1) (flagByte (shiftedOutRight (shiftSource s x y))))

/-- R151: `V[X] <- (V[Y] − V[X]) mod 256; VF <- no borrow`. -/
def execSubn (x y : Reg) (s : State) : Host.Outcome State Fault Refusal :=
  .next (writeResultThenFlag s x (s.reg y - s.reg x) (flagByte (noBorrow (s.reg y) (s.reg x))))

/-- R152: `VF <- (a >> 7) & 1; V[X] <- (a << 1) mod 256`. -/
def execShl (x y : Reg) (s : State) : Host.Outcome State Fault Refusal :=
  .next (writeFlagThenResult s x (shiftSource s x y <<< 1) (flagByte (shiftedOutLeft (shiftSource s x y))))

end Sys2Proof.Machine
end

