-- ==== Sys2Proof/Machine/OptionalExt.lean ====
section
/-! DEFINITION. The four optional instructions (`spec/45_optional_ext.md`). Their gate is in the decoder (R190). -/

namespace Sys2Proof.Machine

/-- R191: no effect but the advanced `PC`. -/
def execSys (_nnn : Addr) (s : State) : Host.Outcome State Fault Refusal := .next s

/-- R192: `V[X] <- r & NN`, `r` a free byte of this step. -/
def execRnd (x : Reg) (nn : Byte) (s : State) : Host.Outcome State Fault Refusal :=
  .next ((s.setReg x (Config.drawnByte s.draws &&& nn)).countDraw)

/-- R193: `ST <- V[X]`. -/
def execLdStVx (x : Reg) (s : State) : Host.Outcome State Fault Refusal := .next (s.setSt (s.reg x))

/-- R194: `I <- FONT_BASE + 5 · (V[X] & 0xF)`. -/
def execLdFVx (x : Reg) (s : State) : Host.Outcome State Fault Refusal := .next (s.setI (glyphAddr (s.reg x)))

end Sys2Proof.Machine
end

