-- ==== Sys2Proof/Machine/Executor.lean ====
section
/-! DEFINITION. The executor step (`spec/60_exceptions.md` R210), the wait step of FX0A (`spec/44_keypad_timers.md`
R186), and placing an instruction where the next fetch finds it. -/

namespace Sys2Proof.Machine

/-- The instruction word at `PC` (`spec/20_memory.md` R65), or the fetch's bounds fault (`spec/60_exceptions.md` R203). -/
def fetchWord (s : State) : Except FaultCause Word :=
  match memRead s s.pc.toNat 2 with
  | .ok bytes => .ok (wordOfBytes (bytes.getD 0 0) (bytes.getD 1 0))
  | .error e => .error e

/-- The wait step in `WaitPress(x)` (R186): latch the lowest pressed key, if one is down. -/
def waitPressStep (x : Reg) (s : State) : State :=
  match s.firstPressed with
  | some k => s.setRun (.waitRelease x k)
  | none => s

/-- The wait step in `WaitRelease(x, k)` (R186): when key `k` is up, `V[x] <- k` and the executor runs again. -/
def waitReleaseStep (x : Reg) (k : Key) (s : State) : State :=
  if s.pressed k then s else (s.setReg x (BitVec.ofNat 8 k.val)).setRun .running

/-- The executor step in `Running` (R210): fetch, advance, decode, execute. The checks come in this order (R209). -/
def runningStep (s : State) : Host.Outcome State Fault Refusal :=
  match fetchWord s with
  | .error e => .next (raise e s.pc s)
  | .ok w =>
    match decode s.cfg.ext w with
    | .error _ => .next (raise (.unknownInstruction w) s.pc (s.fetched w))
    | .ok i => exec i (s.fetched w)

/-- The executor step (R210), one per `instr_tick`. -/
def executorStep (s : State) : Host.Outcome State Fault Refusal :=
  match s.run with
  | .faulted => .next s
  | .waitPress x => .next (waitPressStep x s)
  | .waitRelease x k => .next (waitReleaseStep x k s)
  | .running => runningStep s

/-- Where a placed instruction goes: `PC`, unless no two bytes of memory stand there. -/
def placementPc (s : State) : Word := if s.pc.toNat + 2 ≤ Config.memSize then s.pc else Config.pcReset

/-- The gates under which the bytes of a placed instruction decode (R190). -/
def placementExt (s : State) (bytes : List Byte) : Config.ExtOps :=
  match decodeBytes Config.allExtOps bytes with
  | .ok (i, _) => enableFor s.cfg.ext i
  | .error _ => s.cfg.ext

/-- `s` ready to fetch the instruction `bytes`: stored at `PC`, no input event pending before the next `instrTick`, the
executor running, and an optional instruction's gate enabled (assumption log 12). -/
def placeInstr (bytes : List Byte) (s : State) : State :=
  { (s.store (placementPc s).toNat bytes) with
    pc := placementPc s, run := .running, fault := none, inputs := []
    cfg := { s.cfg with ext := placementExt s bytes } }

end Sys2Proof.Machine
end

