-- ==== Sys2Proof/Machine/Inputs.lean ====
section
/-! DEFINITION. The three agents of `spec/00_scope.md` R9: the executor, the timer clock and the host, one input event a
step. -/

namespace Sys2Proof.Machine

/-- What one input event does (R8, R9). -/
def handleInput (e : Input) (s : State) : Host.Outcome State Fault Refusal :=
  match e with
  | .instrTick => executorStep s
  | .timerTick => .next (timerStep s)
  | .setKey k down => .next (s.setKey k down)
  | .setTimerEn on => .next (s.setTimerEn on)
  | .fbAck => .next s.clearDirty
  | .reset rom => .next (boot rom s)
  | .setInstrHz _ => .next s

/-- The next step: the first input event of `inputs`, and an `instrTick` when none is listed. Every interleaving that R9
admits is the list of some state (assumption log 2). -/
def nextStep (s : State) : Host.Outcome State Fault Refusal :=
  match s.inputs with
  | [] => executorStep s
  | e :: rest => handleInput e (s.setInputs rest)

end Sys2Proof.Machine
end

