-- ==== Sys2Proof/Machine/Observe.lean ====
section
/-! DEFINITION. The outputs of the block (`spec/00_scope.md` R8) and what the host may read (`spec/60_exceptions.md`
R235). Reading has no side effect. -/

namespace Sys2Proof.Machine

/-- `sound_active = (ST ≠ 0)` (R219). -/
def State.soundActive (s : State) : Bool := s.st != 0

/-- The valid entries `STACK[0..SP−1]`, oldest first (R28, R235). -/
def State.callStack (s : State) : List Word := s.stack.toList.take s.sp.val

/-- The values of R235. -/
structure Introspection where
  pc          : Word
  i           : Word
  depth       : Nat
  callStack   : List Word
  v           : Vector Byte 16
  ir          : Word
  dt          : Byte
  fault       : Option FaultRecord
  soundActive : Bool
  deriving DecidableEq, Repr

/-- What the host's debug tooling reads (R235). -/
def observe (s : State) : Introspection where
  pc          := s.pc
  i           := s.i
  depth       := s.sp.val
  callStack   := s.callStack
  v           := s.v
  ir          := s.ir
  dt          := s.dt
  fault       := s.fault
  soundActive := s.soundActive

end Sys2Proof.Machine
end

