-- ==== Sys2Proof/Machine/Step.lean ====
section
/-! DEFINITION. One step of the machine, and placing an opcode-table word where the next step fetches it. -/

namespace Sys2Proof.Machine

/-- One step: the next input event, which is an executor step when none is listed (`spec/00_scope.md` R9). -/
def step (s : State) : Host.Outcome State Fault Refusal := nextStep s

/-- `s` with the opcode-table word `w` of `nbits` bits placed where the next step fetches and runs it. -/
def State.withFetchWord (s : State) (nbits w : Nat) : State := placeInstr (tableBytes nbits w) s

end Sys2Proof.Machine
end

