-- ==== Sys2Proof/Safety.lean ====
section
/-! DEFINITION. What counts as a safe state and a safe run, the invariants of `spec/10_state.md` R45, and the spec's own
tables and pseudocode in the terms the statements use. -/

namespace Sys2Proof.Machine

/-- No fault has been raised: the executor is running or waiting for a key (`spec/60_exceptions.md` R202). -/
abbrev State.Safe (s : State) : Prop := s.run ≠ .faulted

/-- A run of `k` steps that ends in a safe state; a fault is left only by reset (R212). -/
def SafeRun (k : Nat) (s : State) : Prop := ∃ t, core.run k s = .next t ∧ t.Safe

/-- The next step is an executor step (`spec/00_scope.md` R8): an `instr_tick` is next, or no event is listed. -/
abbrev State.TickNext (s : State) : Prop := s.inputs = [] ∨ s.inputs.head? = some .instrTick

/-- The memory is in canonical form. -/
abbrev State.MemCanonical (s : State) : Prop := Memory.wf s.cfg.font s.mem = true

/-- R45: `RUN = Faulted` exactly when `FAULT ≠ none`. -/
abbrev State.FaultLatched (s : State) : Prop := s.run = .faulted ↔ s.fault ≠ none

/-- R45: `PC ≤ 0x10FE`. -/
abbrev State.PcBounded (s : State) : Prop := s.pc.toNat ≤ 0x10FE

/-- R45: every valid stack entry is a value between 2 and 4096. -/
abbrev State.StackBounded (s : State) : Prop :=
  ∀ j : Fin 16, j.val < s.sp.val → 2 ≤ (s.stack[j]).toNat ∧ (s.stack[j]).toNat ≤ 4096

/-- The invariants of every reachable state (R45), and with them the canonical form of memory, which is no clause of R45
but the model's own (assumption log 5). -/
structure State.Inv (s : State) : Prop where
  mem   : s.MemCanonical
  fault : s.FaultLatched
  pc    : s.PcBounded
  stack : s.StackBounded

/-- What a fault of an executing instruction leaves (R202): `s` is the state after the fetch, in which `PC` is
`pc0 + 2`. Only `PC`, `FAULT` and `RUN` differ from it. -/
def State.afterFault (s : State) (e : FaultCause) : State :=
  { s with pc := s.pc - 2, fault := some ⟨e, s.pc - 2⟩, run := .faulted }

/-- The sprite bit that lands on pixel (`y`, `x`) when `n` rows at `I` are drawn with the corner at (`x0`, `y0`)
(`spec/43_display.md` R171, R172), read straight from memory. -/
def State.landingBit (s : State) (x0 y0 n : Nat) (y : Fin 32) (x : Fin 64) : Bool :=
  if y0 ≤ y.val ∧ y.val < y0 + n ∧ x0 ≤ x.val ∧ x.val < x0 + 8 then
    (s.byteAt (s.i.toNat + (y.val - y0))).getLsbD (7 - (x.val - x0))
  else false

/-- The innermost body of the loops of R172: one sprite bit at row `y`, column `x`, clipped. -/
def drwPixel (bit : Bool) (y x : Nat) (acc : FrameBuffer × Bool) : FrameBuffer × Bool :=
  if h : y ≤ 31 ∧ x ≤ 63 then
    let on := (acc.1[y]'(by omega))[x]'(by omega)
    (acc.1.set y ((acc.1[y]'(by omega)).set x (on ^^ bit) (by omega)) (by omega), acc.2 || (bit && on))
  else acc

/-- The two loops of R172 as the spec writes them, over the row bytes `rows`: the screen and `hit` at the end. -/
def drwLoop (fb : FrameBuffer) (rows : List Byte) (x0 y0 : Nat) : FrameBuffer × Bool :=
  (List.range rows.length).foldl
    (fun acc r =>
      (List.range 8).foldl
        (fun acc c => drwPixel ((rows.getD r 0 >>> (7 - c)).getLsbD 0) (y0 + r) (x0 + c) acc) acc)
    (fb, false)

/-- `PC` after an instruction that raises no fault, the table of `spec/10_state.md` R25; `s` is the state after the
fetch, so `s.pc` is `pc0 + 2`. The four optional instructions are "every other instruction"
(`spec/45_optional_ext.md`). -/
def pcAfter (i : Instr) (s : State) : Word :=
  match i with
  | .jp nnn => BitVec.ofNat 16 nnn.toNat
  | .call nnn => BitVec.ofNat 16 nnn.toNat
  | .ret => s.stack.toList.getD (s.sp.val - 1) 0
  | .jpV0 nnn => BitVec.ofNat 16 ((s.reg 0).toNat + nnn.toNat)
  | .seImm x nn => if s.reg x = nn then s.pc + 2 else s.pc
  | .sneImm x nn => if s.reg x = nn then s.pc else s.pc + 2
  | .seReg x y => if s.reg x = s.reg y then s.pc + 2 else s.pc
  | .sneReg x y => if s.reg x = s.reg y then s.pc else s.pc + 2
  | .skp x => if keyLevel s (s.reg x) = .ok true then s.pc + 2 else s.pc
  | .sknp x => if keyLevel s (s.reg x) = .ok false then s.pc + 2 else s.pc
  | .cls => s.pc
  | .ldImm _ _ => s.pc
  | .addImm _ _ => s.pc
  | .ldReg _ _ => s.pc
  | .orReg _ _ => s.pc
  | .andReg _ _ => s.pc
  | .xorReg _ _ => s.pc
  | .addReg _ _ => s.pc
  | .sub _ _ => s.pc
  | .shr _ _ => s.pc
  | .subn _ _ => s.pc
  | .shl _ _ => s.pc
  | .ldI _ => s.pc
  | .drw _ _ _ => s.pc
  | .ldVxDt _ => s.pc
  | .ldDtVx _ => s.pc
  | .addIVx _ => s.pc
  | .ldVxK _ => s.pc
  | .ldBVx _ => s.pc
  | .ldMemVx _ => s.pc
  | .ldVxMem _ => s.pc
  | .sys _ => s.pc
  | .rnd _ _ => s.pc
  | .ldStVx _ => s.pc
  | .ldFVx _ => s.pc

/-- VF after an instruction that raises no fault and whose own destination is not V15, the table of `spec/10_state.md`
R40; `t` is the state after it, from which R40's "set pixel was turned off" is read. -/
def vfAfter (i : Instr) (s t : State) : Byte :=
  match i with
  | .orReg _ _ => 0
  | .andReg _ _ => 0
  | .xorReg _ _ => 0
  | .addReg x y => if 255 < (s.reg x).toNat + (s.reg y).toNat then 1 else 0
  | .sub x y => if (s.reg y).toNat ≤ (s.reg x).toNat then 1 else 0
  | .shr x _ => BitVec.ofNat 8 ((s.reg x).toNat % 2)
  | .subn x y => if (s.reg x).toNat ≤ (s.reg y).toNat then 1 else 0
  | .shl x _ => BitVec.ofNat 8 ((s.reg x).toNat / 128)
  | .drw _ _ _ => if ∃ (y : Fin 32) (x : Fin 64), s.pixel y x = true ∧ t.pixel y x = false then 1 else 0
  | .cls => s.reg 15
  | .ret => s.reg 15
  | .jp _ => s.reg 15
  | .call _ => s.reg 15
  | .seImm _ _ => s.reg 15
  | .sneImm _ _ => s.reg 15
  | .seReg _ _ => s.reg 15
  | .sneReg _ _ => s.reg 15
  | .ldImm _ _ => s.reg 15
  | .addImm _ _ => s.reg 15
  | .ldReg _ _ => s.reg 15
  | .ldI _ => s.reg 15
  | .jpV0 _ => s.reg 15
  | .skp _ => s.reg 15
  | .sknp _ => s.reg 15
  | .ldVxDt _ => s.reg 15
  | .ldDtVx _ => s.reg 15
  | .addIVx _ => s.reg 15
  | .ldVxK _ => s.reg 15
  | .ldBVx _ => s.reg 15
  | .ldMemVx _ => s.reg 15
  | .ldVxMem _ => s.reg 15
  | .sys _ => s.reg 15
  | .rnd _ _ => s.reg 15
  | .ldStVx _ => s.reg 15
  | .ldFVx _ => s.reg 15

/-- The register an instruction's `X` field names as its destination in this step, if it has one (the `LD`, `ADD`, logic,
shift and RND rows, and the last register of `FX65`). -/
def destination (i : Instr) : Option Reg :=
  match i with
  | .ldImm x _ => some x
  | .addImm x _ => some x
  | .ldReg x _ => some x
  | .orReg x _ => some x
  | .andReg x _ => some x
  | .xorReg x _ => some x
  | .addReg x _ => some x
  | .sub x _ => some x
  | .shr x _ => some x
  | .subn x _ => some x
  | .shl x _ => some x
  | .ldVxDt x => some x
  | .ldVxMem x => some x
  | .rnd x _ => some x
  | .cls => none
  | .ret => none
  | .jp _ => none
  | .call _ => none
  | .seImm _ _ => none
  | .sneImm _ _ => none
  | .seReg _ _ => none
  | .sneReg _ _ => none
  | .ldI _ => none
  | .jpV0 _ => none
  | .drw _ _ _ => none
  | .skp _ => none
  | .sknp _ => none
  | .ldDtVx _ => none
  | .addIVx _ => none
  | .ldVxK _ => none
  | .ldBVx _ => none
  | .ldMemVx _ => none
  | .sys _ => none
  | .ldStVx _ => none
  | .ldFVx _ => none

end Sys2Proof.Machine
end

