-- ==== Sys2Proof/Certificates/Slice0/Obligations.lean ====
section
/-! DEFINITION. The statements for the provers. Each docstring names the rule of the spec it formalises, and where a
clause rests on a decision of the spec or of this model, which one. In every statement about `step`, what it says of the
field `inputs` is the model's own form of the schedule (assumption log 2). -/

open Sys2Proof Sys2Proof.Machine

/-! ### Reset -/

/-- R43 with an empty ROM and the default parameters. The values are the spec's decisions D3, D4, D6, D15, D16, D24, D30. -/
def Obligations.ResetStateValues : Prop :=
  (∀ y, State.reset.reg y = 0) ∧ State.reset.i = 0 ∧ State.reset.pc = 0x0200 ∧ State.reset.sp = 0
    ∧ (∀ j : Fin 16, State.reset.stack[j] = 0) ∧ State.reset.dt = 0 ∧ State.reset.st = 0
    ∧ State.reset.run = .running ∧ State.reset.ir = 0 ∧ State.reset.fault = none
    ∧ (∀ y x, State.reset.pixel y x = false) ∧ State.reset.fbDirty = true
    ∧ ∀ a, State.reset.byteAt a =
        if 0x50 ≤ a ∧ a < 0xA0 then Config.defaultFont.toList.getD (a - 0x50) 0 else 0

/-- R250, R252, R253, in every run state: `reset(rom)` with a ROM that fits. The values are the spec's decisions D3, D4,
D6, D15, D16, D21, D27, D30. The two clauses about the model's own fields, that the events still to come are `rest` and
that `draws` stays, are no rule of the spec but the model's choice (assumption log 16; the fields are those of logs 2
and 4). -/
def Obligations.ResetEventLoadsRom : Prop :=
  ∀ (s : State) (rom : List Byte) (rest : List Input), s.inputs = .reset rom :: rest → rom.length ≤ 3584 →
    ∃ t, step s = .next t
      ∧ (∀ y, t.reg y = 0) ∧ t.i = 0 ∧ t.pc = 0x0200 ∧ t.sp = 0 ∧ (∀ j : Fin 16, t.stack[j] = 0)
      ∧ t.dt = 0 ∧ t.st = 0 ∧ t.run = .running ∧ t.ir = 0 ∧ t.fault = none ∧ t.fbDirty = true
      ∧ (∀ y x, t.pixel y x = if s.cfg.fbClearOnReset then false else s.pixel y x)
      ∧ (∀ a, t.byteAt a =
          if 0x50 ≤ a ∧ a < 0xA0 then s.cfg.font.toList.getD (a - 0x50) 0
          else if 0x200 ≤ a ∧ a < 0x200 + rom.length then rom.getD (a - 0x200) 0 else 0)
      ∧ t.keys = s.keys ∧ t.timerEn = s.timerEn ∧ t.cfg = s.cfg ∧ t.inputs = rest ∧ t.draws = s.draws

/-- R252: a ROM that does not fit leaves the core faulted, nothing of it loaded (the spec's decision D21). -/
def Obligations.OversizedRomFaultsAtReset : Prop :=
  ∀ (s : State) (rom : List Byte) (rest : List Input), s.inputs = .reset rom :: rest → 3584 < rom.length →
    ∃ t, step s = .next t
      ∧ t.run = .faulted ∧ t.fault = some ⟨.addressingError 0x200 rom.length, 0x0200⟩ ∧ t.pc = 0x0200
      ∧ ∀ a, t.byteAt a = if 0x50 ≤ a ∧ a < 0xA0 then s.cfg.font.toList.getD (a - 0x50) 0 else 0

/-- R251: the 80 font bytes stand at 0x050 after every reset, whatever the state and the ROM, so they are in place before
the ROM and no ROM byte lands on them. -/
def Obligations.FontReloadedAtEveryReset : Prop :=
  ∀ (s : State) (rom : List Byte) (rest : List Input), s.inputs = .reset rom :: rest →
    ∃ t, step s = .next t ∧ ∀ j, j < 80 → t.byteAt (0x050 + j) = s.cfg.font.toList.getD j 0

/-! ### The executor step -/

/-- R210 with R24 and R65: when the two bytes at `PC` decode to `i`, a tick is `exec i` on the state with `IR` holding the
word and `PC` two further on. The byte order and the moment of the increment are the spec's decisions D1 and D2. -/
def Obligations.StepRunsDecodedInstruction : Prop :=
  ∀ (s : State) (i : Instr), s.run = .running → s.TickNext → s.pc.toNat + 2 ≤ 4096 →
    decode s.cfg.ext (s.byteAt s.pc.toNat ++ s.byteAt (s.pc.toNat + 1)) = .ok i →
      step s = exec i
        { s with ir := s.byteAt s.pc.toNat ++ s.byteAt (s.pc.toNat + 1), pc := s.pc + 2, inputs := s.inputs.tail }

/-- R203 (a) with R202: a fetch at 4095 or above is an AddressingError that leaves everything else, `IR` too, as it was
(the spec's decisions D6, D25). -/
def Obligations.FetchPastMemoryFaults : Prop :=
  ∀ s : State, s.run = .running → s.TickNext → 4095 ≤ s.pc.toNat →
    step s = .next { s with
      fault := some ⟨.addressingError s.pc.toNat 2, s.pc⟩, run := .faulted, inputs := s.inputs.tail }

/-- R204: a fetched word that matches no row of R96 (rows 1 to 31, and the optional rows whose gate is on) raises
UnknownInstruction carrying the word, which is also in `IR`; `PC` stays at the address of the unknown word. That nothing
else changes is the spec's decision D6. -/
def Obligations.UnknownWordFaults : Prop :=
  ∀ (s : State) (w : Word), s.run = .running → s.TickNext → fetchWord s = .ok w →
    (∀ i : Instr, i.enabled s.cfg.ext = true → w &&& i.row.mask = i.row.pattern →
      i.row.number = 32 ∧ (w = 0x00E0 ∨ w = 0x00EE)) →
      step s = .next { s with
        ir := w, fault := some ⟨.unknownInstruction w, s.pc⟩, run := .faulted, inputs := s.inputs.tail }

/-- R202, R210, R212: in `Faulted` a tick changes no state, and once latched the fault record is changed by no step but a
reset, in every state that meets R45's `RUN = Faulted ↔ FAULT ≠ none` (the spec's decision D6). -/
def Obligations.FaultSticksUntilReset : Prop :=
  (∀ s : State, s.run = .faulted → s.TickNext → step s = .next { s with inputs := s.inputs.tail })
    ∧ ∀ (s t : State) (r : FaultRecord), s.FaultLatched → s.fault = some r →
        (∀ rom, s.inputs.head? ≠ some (.reset rom)) → step s = .next t → t.fault = some r ∧ t.run = .faulted

/-- R202: a fault of an instruction is precise: only `PC`, `FAULT` and `RUN` differ from the state after the fetch, and
`PC` is the instruction's own address (the spec's decisions D6, D7, D28). -/
def Obligations.InstructionFaultsArePrecise : Prop :=
  ∀ (i : Instr) (s t : State), s.run = .running → exec i s = .next t → t.run = .faulted → ∃ e, t = s.afterFault e

/-- R203: the sources of AddressingError are complete: DXYN, FX33, FX55 and FX65 exactly when their access passes 4096,
the fetch exactly when `PC ≥ 4095`, and a reset exactly when the ROM is longer than 3584 bytes. The reset clause is the
spec's decision D21. -/
def Obligations.AddressingErrorSourcesComplete : Prop :=
  (∀ (i : Instr) (s t : State) (a n : Nat), s.fault = none → exec i s = .next t →
    ((∃ p, t.fault = some ⟨.addressingError a n, p⟩) ↔
      a = s.i.toNat ∧ 4096 < a + n ∧
        ((∃ x y k, i = .drw x y k ∧ n = k.toNat) ∨ (∃ x, i = .ldBVx x ∧ n = 3)
          ∨ (∃ x, i = .ldMemVx x ∧ n = x.val + 1) ∨ (∃ x, i = .ldVxMem x ∧ n = x.val + 1))))
    ∧ (∀ (s : State) (a n : Nat), fetchWord s = .error (.addressingError a n) ↔
        a = s.pc.toNat ∧ n = 2 ∧ 4095 ≤ s.pc.toNat)
    ∧ ∀ (s : State) (rom : List Byte) (a n : Nat),
        (∃ p, (boot rom s).fault = some ⟨.addressingError a n, p⟩) ↔ a = 0x200 ∧ n = rom.length ∧ 3584 < rom.length

/-- Every state has a next step: no instruction, operand, run state or input event is refused or stops the machine (R210,
R217, R250; the model's own form of taking a fault, assumption log 6). -/
def Obligations.EveryStepAnswersNextState : Prop := ∀ s : State, ∃ t, step s = .next t

/-- R262: a state whose word at `PC` jumps to itself is a fixed point of the tick but for `IR`, and with no further event
it never faults, however many steps are taken (the spec's decision D22 names it the end of a run). -/
def Obligations.JumpToSelfIsFixedPointAndSafe : Prop :=
  ∀ (s : State) (nnn : Addr), s.run = .running → s.inputs = [] → s.pc.toNat = nnn.toNat →
    fetchWord s = .ok (encode (.jp nnn)) →
      step s = .next { s with ir := encode (.jp nnn) } ∧ ∀ k, SafeRun k s

/-! ### Encoding -/

/-- Words written out from R96 and R103 decode to their instructions. -/
def Obligations.KnownWordsDecode : Prop :=
  decode Config.noExtOps 0x1228 = .ok (.jp 0x228) ∧ decode Config.noExtOps 0x83A4 = .ok (.addReg 3 10)
    ∧ decode Config.noExtOps 0xD015 = .ok (.drw 0 1 5) ∧ decode Config.noExtOps 0xF265 = .ok (.ldVxMem 2)
    ∧ decode Config.noExtOps 0xE4A1 = .ok (.sknp 4) ∧ decode Config.allExtOps 0xC30F = .ok (.rnd 3 0x0F)
    ∧ decode Config.noExtOps 0x01E0 = .error (.unknownInstruction 0x01E0)

/-- R91 to R96: decoding the word of a well-formed instruction gives it back, with every operand at every value, wherever
`EXT_OPS` lets the instruction exist. -/
def Obligations.DecodeOfEncode : Prop :=
  ∀ (ext : Config.ExtOps) (i : Instr), i.wellFormed = true → i.enabled ext = true → decode ext (encode i) = .ok i

/-- The other direction: a word the decoder accepts is the word of the instruction it answers, which is well formed and
enabled, so no bit of an accepted word is dropped. -/
def Obligations.EncodeOfDecode : Prop :=
  ∀ (ext : Config.ExtOps) (w : Word) (i : Instr), decode ext w = .ok i →
    encode i = w ∧ i.wellFormed = true ∧ i.enabled ext = true

/-- R98, the complete table of illegal words with `EXT_OPS` empty (an inference the spec draws from R96). -/
def Obligations.IllegalWordsComplete : Prop :=
  ∀ w : Word, decode Config.noExtOps w = .error (.unknownInstruction w) ↔
    (w.toNat / 4096 = 0x0 ∧ w ≠ 0x00E0 ∧ w ≠ 0x00EE)
    ∨ (w.toNat / 4096 = 0x5 ∧ w.toNat % 16 ≠ 0)
    ∨ (w.toNat / 4096 = 0x8 ∧ (8 ≤ w.toNat % 16 ∧ w.toNat % 16 ≠ 0xE))
    ∨ (w.toNat / 4096 = 0x9 ∧ w.toNat % 16 ≠ 0)
    ∨ w.toNat / 4096 = 0xC
    ∨ (w.toNat / 4096 = 0xE ∧ w.toNat % 256 ≠ 0x9E ∧ w.toNat % 256 ≠ 0xA1)
    ∨ (w.toNat / 4096 = 0xF ∧ w.toNat % 256 ∉ [0x07, 0x0A, 0x15, 0x1E, 0x33, 0x55, 0x65])

/-- R96: a word decodes to an instruction of row `r` exactly when it is selected by the row's mask and match and the row
exists, and no word is selected by two rows of the document's table. -/
def Obligations.OpcodeRowsSelectAndDoNotOverlap : Prop :=
  (∀ (ext : Config.ExtOps) (w : Word) (i : Instr), i.enabled ext = true →
    ((∃ j, decode ext w = .ok j ∧ j.row = i.row) ↔
      w &&& i.row.mask = i.row.pattern ∧ (i.row.number = 32 → w ≠ 0x00E0 ∧ w ≠ 0x00EE)))
    ∧ ∀ (i j : Instr) (w : Word), i.row.number ≤ 31 → j.row.number ≤ 31 →
        w &&& i.row.mask = i.row.pattern → w &&& j.row.mask = j.row.pattern → i.row = j.row

/-! ### Loads, arithmetic and logic -/

/-- R141, R142, R144: the three one-register writes complete on every state and operands, write `V[X]` alone (no flag,
not even on wrap-around, unless `X` is 15, when VF is the destination) and change nothing else. -/
def Obligations.LoadsAndAddImmediateResults : Prop :=
  ∀ (x y : Reg) (nn : Byte) (s : State),
    (∃ t, exec (.ldImm x nn) s = .next t ∧ t = { s with v := t.v }
      ∧ (∀ z, t.reg z = if z = x then nn else s.reg z) ∧ ∀ a, t.byteAt a = s.byteAt a)
    ∧ (∃ t, exec (.addImm x nn) s = .next t ∧ t = { s with v := t.v }
      ∧ (∀ z, (t.reg z).toNat = if z = x then ((s.reg x).toNat + nn.toNat) % 256 else (s.reg z).toNat)
      ∧ ∀ a, t.byteAt a = s.byteAt a)
    ∧ (∃ t, exec (.ldReg x y) s = .next t ∧ t = { s with v := t.v }
      ∧ (∀ z, t.reg z = if z = x then s.reg y else s.reg z) ∧ ∀ a, t.byteAt a = s.byteAt a)

/-- R145, R146, R147 with R7: the logic instructions complete; VF ends 0, also with `X` = 15 (the spec's decision D11),
and every other register but `V[X]` stays; under `Q_LOGIC_VF = keep` (not this hardware) only `V[X]` is written. -/
def Obligations.LogicResults : Prop :=
  ∀ (i : Instr) (x y : Reg) (r : Byte) (s : State),
    (i = .orReg x y ∧ r = s.reg x ||| s.reg y) ∨ (i = .andReg x y ∧ r = s.reg x &&& s.reg y)
      ∨ (i = .xorReg x y ∧ r = s.reg x ^^^ s.reg y) →
    ∃ t, exec i s = .next t ∧ t = { s with v := t.v }
      ∧ (∀ z, t.reg z =
          if z = 15 ∧ s.cfg.logicVf = .zero then 0 else if z = x then r else s.reg z)
      ∧ ∀ a, t.byteAt a = s.byteAt a

/-- R143, R148, R149, R151: the 8-bit sum and differences modulo 256 and the carry or no-borrow flag in VF, from the
operands before the instruction; VF ends holding the flag also with `X` = 15 (R140, the spec's decision D11). -/
def Obligations.AddSubResultsAndFlags : Prop :=
  ∀ (x y : Reg) (s : State),
    (∃ t, exec (.addReg x y) s = .next t ∧ t = { s with v := t.v }
      ∧ (∀ z, (t.reg z).toNat =
          if z = 15 then (if 256 ≤ (s.reg x).toNat + (s.reg y).toNat then 1 else 0)
          else if z = x then ((s.reg x).toNat + (s.reg y).toNat) % 256 else (s.reg z).toNat)
      ∧ ∀ a, t.byteAt a = s.byteAt a)
    ∧ (∃ t, exec (.sub x y) s = .next t ∧ t = { s with v := t.v }
      ∧ (∀ z, (t.reg z).toNat =
          if z = 15 then (if (s.reg y).toNat ≤ (s.reg x).toNat then 1 else 0)
          else if z = x then ((s.reg x).toNat + 256 - (s.reg y).toNat) % 256 else (s.reg z).toNat)
      ∧ ∀ a, t.byteAt a = s.byteAt a)
    ∧ (∃ t, exec (.subn x y) s = .next t ∧ t = { s with v := t.v }
      ∧ (∀ z, (t.reg z).toNat =
          if z = 15 then (if (s.reg x).toNat ≤ (s.reg y).toNat then 1 else 0)
          else if z = x then ((s.reg y).toNat + 256 - (s.reg x).toNat) % 256 else (s.reg z).toNat)
      ∧ ∀ a, t.byteAt a = s.byteAt a)

/-- R150, R152 with R7 and R140: the source is `V[X]` by default and `V[Y]` under `Q_SHIFT_SRC = VY`; VF receives the bit
shifted out; with `X` = 15 VF ends as the shifted value under `table_order` and as the bit under `flag_last`. The write
order is the spec's decision D11. -/
def Obligations.ShiftResultsAndFlags : Prop :=
  ∀ (x y : Reg) (a : Byte) (s : State), a = (if s.cfg.shiftSrc = .vx then s.reg x else s.reg y) →
    (∃ t, exec (.shr x y) s = .next t ∧ t = { s with v := t.v }
      ∧ (∀ z, (t.reg z).toNat =
          if z = x ∧ (x = 15 → s.cfg.vfOrder = .tableOrder) then a.toNat / 2
          else if z = 15 then a.toNat % 2 else (s.reg z).toNat)
      ∧ ∀ k, t.byteAt k = s.byteAt k)
    ∧ (∃ t, exec (.shl x y) s = .next t ∧ t = { s with v := t.v }
      ∧ (∀ z, (t.reg z).toNat =
          if z = x ∧ (x = 15 → s.cfg.vfOrder = .tableOrder) then a.toNat * 2 % 256
          else if z = 15 then a.toNat / 128 else (s.reg z).toNat)
      ∧ ∀ k, t.byteAt k = s.byteAt k)

/-! ### Index register and memory -/

/-- R160: `I <- NNN` completes on every state; any `NNN` is accepted and nothing else changes. -/
def Obligations.LoadIndexResult : Prop :=
  ∀ (nnn : Addr) (s : State), ∃ t, exec (.ldI nnn) s = .next t ∧ t = { s with i := t.i }
    ∧ t.i.toNat = nnn.toNat ∧ ∀ a, t.byteAt a = s.byteAt a

/-- R161: `I <- (I + V[X]) mod 65536`, VF unchanged, no fault whatever the sum (the spec's decision D25). -/
def Obligations.AddIndexResult : Prop :=
  ∀ (x : Reg) (s : State), ∃ t, exec (.addIVx x) s = .next t ∧ t = { s with i := t.i }
    ∧ t.i.toNat = (s.i.toNat + (s.reg x).toNat) % 65536 ∧ ∀ a, t.byteAt a = s.byteAt a

/-- R163: the decimal digits of `V[X]` go to the three bytes at `I`, `I` stays and nothing else changes; when
`I + 3 > 4096` the AddressingError carries `(I, 3)` and no byte is written. -/
def Obligations.BcdStoreResult : Prop :=
  ∀ (x : Reg) (s : State),
    (s.i.toNat + 3 ≤ 4096 → ∃ t, exec (.ldBVx x) s = .next t ∧ t = { s with mem := t.mem }
      ∧ (t.byteAt s.i.toNat).toNat = (s.reg x).toNat / 100
      ∧ (t.byteAt (s.i.toNat + 1)).toNat = (s.reg x).toNat / 10 % 10
      ∧ (t.byteAt (s.i.toNat + 2)).toNat = (s.reg x).toNat % 10
      ∧ ∀ a, a < s.i.toNat ∨ s.i.toNat + 3 ≤ a → t.byteAt a = s.byteAt a)
    ∧ (4096 < s.i.toNat + 3 → ∃ t p, exec (.ldBVx x) s = .next t
      ∧ t.fault = some ⟨.addressingError s.i.toNat 3, p⟩ ∧ t.i = s.i ∧ ∀ a, t.byteAt a = s.byteAt a)

/-- R164: `V[0] … V[X]` go to the bytes at `I`, `I` advances by `X + 1` (under the default `Q_MEM_INC = inc`; it stays
under `keep`, which is not this hardware) and nothing else changes; when `I + X + 1 > 4096` no byte is written and `I` is
not changed. -/
def Obligations.StoreRegistersResult : Prop :=
  ∀ (x : Reg) (s : State),
    (s.i.toNat + x.val + 1 ≤ 4096 → ∃ t, exec (.ldMemVx x) s = .next t ∧ t = { s with mem := t.mem, i := t.i }
      ∧ t.i.toNat = (if s.cfg.memInc = .inc then s.i.toNat + x.val + 1 else s.i.toNat)
      ∧ (∀ j : Reg, j ≤ x → t.byteAt (s.i.toNat + j.val) = s.reg j)
      ∧ ∀ a, a < s.i.toNat ∨ s.i.toNat + x.val + 1 ≤ a → t.byteAt a = s.byteAt a)
    ∧ (4096 < s.i.toNat + x.val + 1 → ∃ t p, exec (.ldMemVx x) s = .next t
      ∧ t.fault = some ⟨.addressingError s.i.toNat (x.val + 1), p⟩ ∧ t.i = s.i ∧ ∀ a, t.byteAt a = s.byteAt a)

/-- R165: `V[0] … V[X]` come from the bytes at `I`, the registers above `V[X]` stay, `I` advances by `X + 1` (under the
default `Q_MEM_INC = inc`; it stays under `keep`, which is not this hardware); when `I + X + 1 > 4096` no register and
not `I` changes. -/
def Obligations.LoadRegistersResult : Prop :=
  ∀ (x : Reg) (s : State),
    (s.i.toNat + x.val + 1 ≤ 4096 → ∃ t, exec (.ldVxMem x) s = .next t ∧ t = { s with v := t.v, i := t.i }
      ∧ t.i.toNat = (if s.cfg.memInc = .inc then s.i.toNat + x.val + 1 else s.i.toNat)
      ∧ (∀ j : Reg, t.reg j = if j ≤ x then s.byteAt (s.i.toNat + j.val) else s.reg j)
      ∧ ∀ a, t.byteAt a = s.byteAt a)
    ∧ (4096 < s.i.toNat + x.val + 1 → ∃ t p, exec (.ldVxMem x) s = .next t
      ∧ t.fault = some ⟨.addressingError s.i.toNat (x.val + 1), p⟩ ∧ t.i = s.i ∧ (∀ j, t.reg j = s.reg j)
      ∧ ∀ a, t.byteAt a = s.byteAt a)

/-- R166 for every `X`: storing `V[0] … V[X]`, setting `I` back, and loading into whatever the registers then hold gives
the original registers back, and `I` ends at `I + X + 1` both times (an inference the spec draws from R164, R165). -/
def Obligations.StoreThenLoadRegistersRoundTrip : Prop :=
  ∀ (x : Reg) (s t : State) (v : Vector Byte 16), s.cfg.memInc = .inc → s.i.toNat + x.val + 1 ≤ 4096 →
    exec (.ldMemVx x) s = .next t →
      ∃ u, exec (.ldVxMem x) { t with i := s.i, v := v } = .next u
        ∧ (∀ j : Reg, j ≤ x → u.reg j = s.reg j) ∧ t.i.toNat = s.i.toNat + x.val + 1 ∧ u.i = t.i

/-- R77: after a successful write, with no other write in between, a read of the same place returns exactly the bytes
written, and every write inside the 4096 bytes succeeds. -/
def Obligations.ReadAfterWriteReturnsBytes : Prop :=
  ∀ (s : State) (a : Nat) (bytes : List Byte), a + bytes.length ≤ 4096 →
    ∃ t, memWrite s a bytes = .ok t ∧ memRead t a bytes.length = .ok bytes

/-- R75: an instruction word stored over the word at `PC` is what the very next fetch reads, high byte first (an
inference the spec draws from R63, R65, R70; the byte order is its decision D1). -/
def Obligations.StoreIsSeenByNextFetch : Prop :=
  ∀ (s t : State) (b0 b1 : Byte) (w : Word), memWrite s s.pc.toNat [b0, b1] = .ok t → fetchWord t = .ok w →
    w.toNat = b0.toNat * 256 + b1.toNat

/-- R67, R63: no instruction but FX33 and FX55 changes a byte of memory, and these only inside the range they are given
at `I` (whole-machine frame over every instruction and every outcome). -/
def Obligations.OnlyBcdAndStoreWriteMemory : Prop :=
  ∀ (i : Instr) (s t : State) (a : Nat), exec i s = .next t → t.byteAt a ≠ s.byteAt a →
    s.i.toNat ≤ a ∧ a < 4096 ∧
      ((∃ x, i = .ldBVx x ∧ a < s.i.toNat + 3) ∨ ∃ x, i = .ldMemVx x ∧ a < s.i.toNat + x.val + 1)

/-! ### Control transfer -/

/-- R121, R123: the two jumps complete on every state, put the target in `PC` without narrowing it to 12 bits, and change
nothing else. -/
def Obligations.JumpTargets : Prop :=
  ∀ (nnn : Addr) (s : State),
    (∃ t, exec (.jp nnn) s = .next t ∧ t = { s with pc := t.pc } ∧ t.pc.toNat = nnn.toNat
      ∧ ∀ a, t.byteAt a = s.byteAt a)
    ∧ ∃ t, exec (.jpV0 nnn) s = .next t ∧ t = { s with pc := t.pc } ∧ t.pc.toNat = (s.reg 0).toNat + nnn.toNat
      ∧ ∀ a, t.byteAt a = s.byteAt a

/-- R122 with R29: CALL pushes the advanced `PC` and jumps, the older entries stay; with `SP` = 16 it raises
StackOverflow, `PC` is the CALL's own address and nothing is pushed. -/
def Obligations.CallPushesReturnAddress : Prop :=
  ∀ (nnn : Addr) (s : State),
    (s.sp.val < 16 → ∃ t, exec (.call nnn) s = .next t ∧ t = { s with stack := t.stack, sp := t.sp, pc := t.pc }
      ∧ t.pc.toNat = nnn.toNat ∧ t.sp.val = s.sp.val + 1
      ∧ (∀ j : Fin 16, t.stack[j] = if j.val = s.sp.val then s.pc else s.stack[j]) ∧ ∀ a, t.byteAt a = s.byteAt a)
    ∧ (s.sp.val = 16 → exec (.call nnn) s = .next (s.afterFault .stackOverflow))

/-- R120 with R30: RET pops the most recent entry into `PC` as it is; the entry stays as stale data; with `SP` = 0 it
raises StackUnderflow and nothing else changes. -/
def Obligations.ReturnPopsIntoPc : Prop :=
  ∀ s : State,
    (∀ j : Fin 16, j.val + 1 = s.sp.val → ∃ t, exec .ret s = .next t ∧ t = { s with sp := t.sp, pc := t.pc }
      ∧ t.pc = s.stack[j] ∧ t.sp.val = j.val ∧ ∀ a, t.byteAt a = s.byteAt a)
    ∧ (s.sp.val = 0 → exec .ret s = .next (s.afterFault .stackUnderflow))

/-- The document's property quoted in R24 and R120: CALL then RET restores `PC` to the value immediately following the
CALL, and `SP`, wherever the subroutine left `PC` in between. -/
def Obligations.CallThenReturnRestoresPc : Prop :=
  ∀ (nnn : Addr) (s t : State) (p : Word), s.sp.val < 16 → exec (.call nnn) s = .next t →
    ∃ u, exec .ret { t with pc := p } = .next u ∧ u.pc = s.pc ∧ u.sp = s.sp ∧ u.v = s.v ∧ u.i = s.i

/-- R28: no instruction but CALL and RET touches the stack or `SP` (the spec's decision D5). -/
def Obligations.OnlyCallAndReturnTouchStack : Prop :=
  ∀ (i : Instr) (s t : State), exec i s = .next t → (t.stack ≠ s.stack ∨ t.sp ≠ s.sp) →
    i = .ret ∨ ∃ nnn, i = .call nnn

/-- R124 to R127: the four register skips complete on every state, add 2 to the advanced `PC` exactly when their
condition holds, and change nothing else. -/
def Obligations.RegisterSkips : Prop :=
  ∀ (x y : Reg) (nn : Byte) (s : State),
    (exec (.seImm x nn) s = .next { s with pc := if s.reg x = nn then s.pc + 2 else s.pc })
    ∧ (exec (.sneImm x nn) s = .next { s with pc := if s.reg x ≠ nn then s.pc + 2 else s.pc })
    ∧ (exec (.seReg x y) s = .next { s with pc := if s.reg x = s.reg y then s.pc + 2 else s.pc })
    ∧ (exec (.sneReg x y) s = .next { s with pc := if s.reg x ≠ s.reg y then s.pc + 2 else s.pc })

/-- R25: `PC` after every instruction, by the spec's table; after an instruction that raises a fault it is the
instruction's own address. `s` is the state after the fetch, so `s.pc` is `pc0 + 2`. -/
def Obligations.PcTableComplete : Prop :=
  ∀ (i : Instr) (s t : State), s.run = .running → exec i s = .next t →
    t.pc = if t.run = .faulted then s.pc - 2 else pcAfter i s

/-- R40: VF after every instruction, by the spec's table, under the default parameters R40 assumes: the rows that write a
flag write the one given, and every other instruction leaves VF unchanged unless its own destination is register 15. -/
def Obligations.VfTableComplete : Prop :=
  ∀ (i : Instr) (s t : State), s.run = .running → s.cfg.logicVf = .zero → s.cfg.shiftSrc = .vx →
    destination i ≠ some 15 → exec i s = .next t → t.run ≠ .faulted → t.reg 15 = vfAfter i s t

/-! ### Display -/

/-- R170: CLS turns every pixel off and sets `FB_DIRTY` (the spec's decision D15); VF and everything else stay. -/
def Obligations.ClearScreenResult : Prop :=
  ∀ s : State, ∃ t, exec .cls s = .next t ∧ t = { s with fb := t.fb, fbDirty := true }
    ∧ (∀ y x, t.pixel y x = false) ∧ ∀ a, t.byteAt a = s.byteAt a

/-- R172: DXYN XORs the sprite onto the screen, clipped; VF is 1 exactly when a pixel that was on is turned off; `I`,
memory and the other registers stay. The bit order is the spec's decision D12, the check over all rows D13, `FB_DIRTY`
D15. -/
def Obligations.DrawResult : Prop :=
  ∀ (x y : Reg) (n : Nibble) (s : State) (x0 y0 : Nat), x0 = (s.reg x).toNat % 64 → y0 = (s.reg y).toNat % 32 →
    s.i.toNat + n.toNat ≤ 4096 →
      ∃ t, exec (.drw x y n) s = .next t ∧ t = { s with v := t.v, fb := t.fb, fbDirty := true }
        ∧ (∀ r c, t.pixel r c = (s.pixel r c ^^ s.landingBit x0 y0 n.toNat r c))
        ∧ (t.reg 15 = 1 ∨ t.reg 15 = 0)
        ∧ (t.reg 15 = 1 ↔ ∃ r c, s.pixel r c = true ∧ t.pixel r c = false)
        ∧ (∀ z, z ≠ 15 → t.reg z = s.reg z) ∧ ∀ a, t.byteAt a = s.byteAt a

/-- R172, R62: when `I + N > 4096`, clipped rows counted, DXYN changes no pixel, not VF and not `FB_DIRTY` (the spec's
decisions D6, D13). -/
def Obligations.DrawPastMemoryFaults : Prop :=
  ∀ (x y : Reg) (n : Nibble) (s : State), 4096 < s.i.toNat + n.toNat →
    exec (.drw x y n) s = .next (s.afterFault (.addressingError s.i.toNat n.toNat))

/-- R172: the screen and the collision flag of the model are those of the spec's two nested loops, for every screen, every
list of row bytes and every corner. -/
def Obligations.DrawMatchesNestedLoops : Prop :=
  ∀ (fb : FrameBuffer) (rows : List Byte) (x0 y0 : Nat),
    drwLoop fb rows x0 y0 = (drawSprite fb rows x0 y0, spriteHits fb rows x0 y0)

/-- R172 (i): drawing the same sprite twice at the same place restores the screen, and the second VF is 1 exactly when the
first draw turned some pixel on. (The rule's remark says "any bit that landed on the screen", which its pseudocode gives
only where the bit lands on an off pixel; assumption log 9.) VF is none of the coordinates, since the first draw
overwrites it. -/
def Obligations.DrawTwiceRestoresScreen : Prop :=
  ∀ (x y : Reg) (n : Nibble) (s t : State), x ≠ 15 → y ≠ 15 → s.run = .running → exec (.drw x y n) s = .next t →
    t.run = .running →
    ∃ u, exec (.drw x y n) t = .next u ∧ u.fb = s.fb
      ∧ (u.reg 15 = 1 ↔ ∃ r c, s.pixel r c = false ∧ t.pixel r c = true)

/-! ### Keys and timers -/

/-- R180, R181, R182: the key skips test the level of key `V[X]` when it is 15 or less; above that `KEY_OOR` decides (the
spec's decision D17): a fault by default, the low four bits under `mask4`, never pressed under `not_pressed`. -/
def Obligations.KeySkips : Prop :=
  ∀ (x : Reg) (s : State),
    (∀ k : Key, (s.reg x).toNat = k.val ∨ (16 ≤ (s.reg x).toNat ∧ s.cfg.keyOor = .mask4 ∧ (s.reg x).toNat % 16 = k.val) →
      exec (.skp x) s = .next { s with pc := if s.pressed k then s.pc + 2 else s.pc }
      ∧ exec (.sknp x) s = .next { s with pc := if s.pressed k then s.pc else s.pc + 2 })
    ∧ (16 ≤ (s.reg x).toNat → s.cfg.keyOor = .notPressed →
      exec (.skp x) s = .next s ∧ exec (.sknp x) s = .next { s with pc := s.pc + 2 })
    ∧ (16 ≤ (s.reg x).toNat → s.cfg.keyOor = .fault →
      exec (.skp x) s = .next (s.afterFault (.keyIndexError (s.reg x)))
      ∧ exec (.sknp x) s = .next (s.afterFault (.keyIndexError (s.reg x))))

/-- R183, R186: FX0A only enters the wait, writing no register and sampling no key; a wait step latches the lowest pressed
key, then writes its number to `V[x]` when it is released; otherwise nothing changes (the spec's decision D18). -/
def Obligations.KeyWaitFromStartToRelease : Prop :=
  (∀ (x : Reg) (s : State), exec (.ldVxK x) s = .next { s with run := .waitPress x })
    ∧ ∀ (s : State) (x : Reg), s.TickNext →
      (s.run = .waitPress x →
        (∀ k, s.pressed k = true → (∀ j, j < k → s.pressed j = false) →
          step s = .next { s with run := .waitRelease x k, inputs := s.inputs.tail })
        ∧ ((∀ k, s.pressed k = false) → step s = .next { s with inputs := s.inputs.tail }))
      ∧ ∀ k, s.run = .waitRelease x k →
        (s.pressed k = true → step s = .next { s with inputs := s.inputs.tail })
        ∧ (s.pressed k = false → ∃ t, step s = .next t
            ∧ t = { s with v := t.v, run := .running, inputs := s.inputs.tail }
            ∧ ∀ z, (t.reg z).toNat = if z = x then k.val else (s.reg z).toNat)

/-- R184, R185: FX07 copies `DT` and FX15 replaces it outright; both complete on every state and change nothing else. -/
def Obligations.DelayTimerTransfers : Prop :=
  ∀ (x : Reg) (s : State),
    (∃ t, exec (.ldVxDt x) s = .next t ∧ t = { s with v := t.v } ∧ (∀ z, t.reg z = if z = x then s.dt else s.reg z)
      ∧ ∀ a, t.byteAt a = s.byteAt a)
    ∧ exec (.ldDtVx x) s = .next { s with dt := s.reg x }

/-- R217, R218, R214: a timer tick decrements both timers towards 0 when `timer_en` is 1, does nothing when it is 0, in
every run state, and changes nothing else (the spec's decision D19). -/
def Obligations.TimerTickCountsDown : Prop :=
  ∀ (s : State) (rest : List Input), s.inputs = .timerTick :: rest →
    ∃ t, step s = .next t ∧ t = { s with dt := t.dt, st := t.st, inputs := rest }
      ∧ t.dt.toNat = (if s.timerEn then s.dt.toNat - 1 else s.dt.toNat)
      ∧ t.st.toNat = (if s.timerEn then s.st.toNat - 1 else s.st.toNat)

/-- R184, R217: after `n` timer ticks a started timer holds `max(v − n, 0)`, an unstarted one `v` (the spec's decision
D19). -/
def Obligations.TimerAfterManyTicks : Prop :=
  ∀ (n : Nat) (s : State), s.inputs = List.replicate n .timerTick →
    ∃ t, core.run n s = .next t
      ∧ t.dt.toNat = (if s.timerEn then s.dt.toNat - n else s.dt.toNat)
      ∧ t.st.toNat = (if s.timerEn then s.st.toNat - n else s.st.toNat)

/-! ### The optional instructions -/

/-- R191 to R194: SYS has no effect, LD ST writes the sound timer, LD F the glyph address, and RND writes `V[X]` alone
with no bit outside `NN`, whatever byte is drawn (from general knowledge, the spec's decision D10; the drawn byte is a free
value and the counter of draws is the model's own, assumption log 4). -/
def Obligations.OptionalInstructionResults : Prop :=
  ∀ (nnn : Addr) (x : Reg) (nn : Byte) (s : State),
    exec (.sys nnn) s = .next s
    ∧ exec (.ldStVx x) s = .next { s with st := s.reg x }
    ∧ (∃ t, exec (.ldFVx x) s = .next t ∧ t = { s with i := t.i }
      ∧ t.i.toNat = 0x50 + 5 * ((s.reg x).toNat % 16) ∧ ∀ a, t.byteAt a = s.byteAt a)
    ∧ ∃ t r, exec (.rnd x nn) s = .next t ∧ t = { s with v := t.v, draws := s.draws + 1 }
      ∧ (∀ z, t.reg z = if z = x then r &&& nn else s.reg z) ∧ ∀ a, t.byteAt a = s.byteAt a

/-! ### The host and the whole machine -/

/-- R230: changing the instruction clock's rate changes no state of the core. -/
def Obligations.RateChangeChangesNoState : Prop :=
  ∀ (s : State) (hz : Nat) (rest : List Input), s.inputs = .setInstrHz hz :: rest →
    step s = .next { s with inputs := rest }

/-- R8, R9, R218, R226, R228: each of the host's other moves changes its one piece of state and nothing else. -/
def Obligations.HostMovesChangeOnlyTheirs : Prop :=
  ∀ (s : State) (rest : List Input),
    (∀ k down, s.inputs = .setKey k down :: rest →
      ∃ t, step s = .next t ∧ t = { s with keys := t.keys, inputs := rest }
        ∧ ∀ j, t.pressed j = if j = k then down else s.pressed j)
    ∧ (∀ on, s.inputs = .setTimerEn on :: rest → step s = .next { s with timerEn := on, inputs := rest })
    ∧ (s.inputs = .fbAck :: rest → step s = .next { s with fbDirty := false, inputs := rest })

/-- R9, R70, R73: registers, memory, the stack, `PC`, `I`, `IR`, `RUN`, `FAULT` and the screen change only in executor
steps and in a reset; a change of a timer needs a timer tick, an executor step or a reset. -/
def Obligations.OnlyExecutorAndResetChangeCore : Prop :=
  ∀ (s t : State) (e : Input) (rest : List Input), s.inputs = e :: rest → e ≠ .instrTick → (∀ rom, e ≠ .reset rom) →
    step s = .next t →
      t.v = s.v ∧ t.mem = s.mem ∧ t.stack = s.stack ∧ t.sp = s.sp ∧ t.pc = s.pc ∧ t.i = s.i ∧ t.ir = s.ir
        ∧ t.run = s.run ∧ t.fault = s.fault ∧ t.fb = s.fb
        ∧ (e ≠ .timerTick → t.dt = s.dt ∧ t.st = s.st)

/-- R42: no instruction reads `IR` or `FB_DIRTY`: `exec` takes two states that differ only there to states that differ at
most there. For `CXNN` the two states draw the same byte, which is no rule of the spec but the model's choice: the drawn
byte is a function of the count of draws, equal in both (assumption log 4). -/
def Obligations.IrAndDirtyFlagAreNeverRead : Prop :=
  ∀ (i : Instr) (s t : State) (w : Word) (d : Bool), exec i s = .next t →
    ∃ u, exec i { s with ir := w, fbDirty := d } = .next u ∧ { u with ir := t.ir, fbDirty := t.fbDirty } = t

/-- R190: the parameters stay fixed: no step changes them. -/
def Obligations.StepKeepsParameters : Prop := ∀ s t : State, step s = .next t → t.cfg = s.cfg

/-- R32, R219: with `LD_ST` not enabled, `ST = 0` is kept by every step, so `sound_active` stays false (an inference the
spec draws from R96). -/
def Obligations.SoundStaysOffWithoutLdSt : Prop :=
  ∀ s t : State, s.cfg.ext.ldSt = false → s.st = 0 → step s = .next t →
    t.cfg.ext.ldSt = false ∧ t.st = 0 ∧ t.soundActive = false

/-- The canonical form of memory is kept by every step, from every state that has it (the model's own form of `MEM`,
assumption log 5). -/
def Obligations.StepKeepsMemoryCanonical : Prop :=
  ∀ s t : State, s.MemCanonical → step s = .next t → t.MemCanonical

/-- R45: the invariants of every reachable state are kept by every step, from every state that meets them (an inference
the spec draws from R24, R26, R29, R30, R202). One clause of `State.Inv` is no clause of R45: that the memory is in
canonical form, the model's own choice of how to hold `MEM` (assumption log 5). -/
def Obligations.StepKeepsInvariants : Prop := ∀ s t : State, s.Inv → step s = .next t → t.Inv

/-- The invariants of R45, and the canonical form of memory, hold at `State.reset`. The canonical form is no clause of R45
but the model's own choice of how to hold `MEM` (assumption log 5); the values of `State.reset` are R43's. -/
def Obligations.ResetMeetsInvariants : Prop := State.reset.Inv
end

