-- ==== Sys2Proof/Laws/Decode.lean ====
section
/-! SUPPORT. Each field of each instruction format as a number, and the two bytes of a word (`spec/30_encoding.md` R91,
R92). -/

namespace Sys2Proof

/-- Concatenation as a number: the first part is the more significant one (`spec/00_scope.md` R11). -/
theorem append_toNat {m n : Nat} (a : BitVec m) (b : BitVec n) : (a ++ b).toNat = a.toNat * 2 ^ n + b.toNat := by
  rw [BitVec.toNat_append, ← Nat.shiftLeft_add_eq_or_of_lt b.isLt, Nat.shiftLeft_eq]

/-- A field as a number (R92). -/
theorem field_toNat {w : Nat} (v : BitVec w) (lo len : Nat) : (v.extractLsb' lo len).toNat = v.toNat / 2 ^ lo % 2 ^ len := by
  rw [BitVec.extractLsb'_toNat, Nat.shiftRight_eq_div_pow]

theorem formNNN_toNat (op : Nibble) (nnn : Addr) : (formNNN op nnn).toNat = op.toNat * 4096 + nnn.toNat := by
  have h : (formNNN op nnn).toNat = op.toNat * 2 ^ 12 + nnn.toNat := append_toNat op nnn
  omega

theorem formXNN_toNat (op : Nibble) (x : Reg) (nn : Byte) :
    (formXNN op x nn).toNat = op.toNat * 4096 + x.val * 256 + nn.toNat := by
  have h1 : (formXNN op x nn).toNat = (op ++ (BitVec.ofFin x : Nibble)).toNat * 2 ^ 8 + nn.toNat := append_toNat _ nn
  have h2 := append_toNat op (BitVec.ofFin x : Nibble)
  have h3 : (BitVec.ofFin x : Nibble).toNat = x.val := rfl
  rw [h1, h2, h3]; ring

theorem formXYN_toNat (op : Nibble) (x y : Reg) (n : Nibble) :
    (formXYN op x y n).toNat = op.toNat * 4096 + x.val * 256 + y.val * 16 + n.toNat := by
  have h1 : (formXYN op x y n).toNat =
      (op ++ (BitVec.ofFin x : Nibble) ++ (BitVec.ofFin y : Nibble)).toNat * 2 ^ 4 + n.toNat := append_toNat _ n
  have h2 := append_toNat (op ++ (BitVec.ofFin x : Nibble)) (BitVec.ofFin y : Nibble)
  have h3 := append_toNat op (BitVec.ofFin x : Nibble)
  have h4 : (BitVec.ofFin x : Nibble).toNat = x.val := rfl
  have h5 : (BitVec.ofFin y : Nibble).toNat = y.val := rfl
  rw [h1, h2, h3, h4, h5]; ring

theorem opField_toNat (w : Word) : (opField w).toNat = w.toNat / 4096 := by
  rw [opField, field_toNat]; omega

theorem xField_val (w : Word) : (xField w).val = w.toNat / 256 % 16 := field_toNat w 8 4

theorem yField_val (w : Word) : (yField w).val = w.toNat / 16 % 16 := field_toNat w 4 4

theorem nField_toNat (w : Word) : (nField w).toNat = w.toNat % 16 := by
  rw [nField, field_toNat]; omega

theorem nnField_toNat (w : Word) : (nnField w).toNat = w.toNat % 256 := by
  rw [nnField, field_toNat]; omega

theorem nnnField_toNat (w : Word) : (nnnField w).toNat = w.toNat % 4096 := by
  rw [nnnField, field_toNat]; omega

/-- Big-endian assembly as a number (`spec/20_memory.md` R65). -/
theorem wordOfBytes_toNat (b0 b1 : Byte) : (wordOfBytes b0 b1).toNat = b0.toNat * 256 + b1.toNat := by
  have h : (wordOfBytes b0 b1).toNat = b0.toNat * 2 ^ 8 + b1.toNat := append_toNat b0 b1
  omega

/-! ### The fields of each format -/

@[simp] theorem opField_formNNN (op : Nibble) (nnn : Addr) : opField (formNNN op nnn) = op := by
  apply BitVec.eq_of_toNat_eq; rw [opField_toNat, formNNN_toNat]; omega

@[simp] theorem nnnField_formNNN (op : Nibble) (nnn : Addr) : nnnField (formNNN op nnn) = nnn := by
  apply BitVec.eq_of_toNat_eq; rw [nnnField_toNat, formNNN_toNat]; omega

@[simp] theorem opField_formXNN (op : Nibble) (x : Reg) (nn : Byte) : opField (formXNN op x nn) = op := by
  apply BitVec.eq_of_toNat_eq; rw [opField_toNat, formXNN_toNat]; omega

@[simp] theorem xField_formXNN (op : Nibble) (x : Reg) (nn : Byte) : xField (formXNN op x nn) = x := by
  apply Fin.ext; rw [xField_val, formXNN_toNat]; omega

@[simp] theorem nnField_formXNN (op : Nibble) (x : Reg) (nn : Byte) : nnField (formXNN op x nn) = nn := by
  apply BitVec.eq_of_toNat_eq; rw [nnField_toNat, formXNN_toNat]; omega

@[simp] theorem opField_formXYN (op : Nibble) (x y : Reg) (n : Nibble) : opField (formXYN op x y n) = op := by
  apply BitVec.eq_of_toNat_eq; rw [opField_toNat, formXYN_toNat]; omega

@[simp] theorem xField_formXYN (op : Nibble) (x y : Reg) (n : Nibble) : xField (formXYN op x y n) = x := by
  apply Fin.ext; rw [xField_val, formXYN_toNat]; omega

@[simp] theorem yField_formXYN (op : Nibble) (x y : Reg) (n : Nibble) : yField (formXYN op x y n) = y := by
  apply Fin.ext; rw [yField_val, formXYN_toNat]; omega

@[simp] theorem nField_formXYN (op : Nibble) (x y : Reg) (n : Nibble) : nField (formXYN op x y n) = n := by
  apply BitVec.eq_of_toNat_eq; rw [nField_toNat, formXYN_toNat]; omega

/-- The two bytes of a word give the word back (`spec/20_memory.md` R65). -/
theorem wordOfBytes_bytesOfWord (w : Word) :
    wordOfBytes ((bytesOfWord w).getD 0 0) ((bytesOfWord w).getD 1 0) = w := by
  apply BitVec.eq_of_toNat_eq
  have h : (wordOfBytes ((bytesOfWord w).getD 0 0) ((bytesOfWord w).getD 1 0)).toNat =
      (w.extractLsb' 8 8).toNat * 256 + (w.extractLsb' 0 8).toNat := wordOfBytes_toNat _ _
  rw [h, field_toNat, field_toNat]; omega

/-! ### Masks: what `w &&& mask` keeps of a word, as fields (R96) -/

theorem formNNN_getLsbD (op : Nibble) (nnn : Addr) (k : Nat) :
    (formNNN op nnn).getLsbD k = if k < 12 then nnn.getLsbD k else op.getLsbD (k - 12) := BitVec.getLsbD_append

theorem formXNN_getLsbD (op : Nibble) (x : Reg) (nn : Byte) (k : Nat) :
    (formXNN op x nn).getLsbD k =
      if k < 8 then nn.getLsbD k
      else if k - 8 < 4 then (BitVec.ofFin x : Nibble).getLsbD (k - 8) else op.getLsbD (k - 8 - 4) := by
  have h : (formXNN op x nn).getLsbD k =
      if k < 8 then nn.getLsbD k else (op ++ (BitVec.ofFin x : Nibble)).getLsbD (k - 8) := BitVec.getLsbD_append
  rw [h, BitVec.getLsbD_append]

theorem formXYN_getLsbD (op : Nibble) (x y : Reg) (n : Nibble) (k : Nat) :
    (formXYN op x y n).getLsbD k =
      if k < 4 then n.getLsbD k
      else if k - 4 < 4 then (BitVec.ofFin y : Nibble).getLsbD (k - 4)
      else if k - 4 - 4 < 4 then (BitVec.ofFin x : Nibble).getLsbD (k - 4 - 4) else op.getLsbD (k - 4 - 4 - 4) := by
  have h : (formXYN op x y n).getLsbD k =
      if k < 4 then n.getLsbD k
      else (op ++ (BitVec.ofFin x : Nibble) ++ (BitVec.ofFin y : Nibble)).getLsbD (k - 4) := BitVec.getLsbD_append
  rw [h, BitVec.getLsbD_append, BitVec.getLsbD_append]

/-- The mask of the formats NNN, XNN and XYN keeps the opcode nibble. -/
theorem maskOp_eq (w : Word) : w &&& 0xF000 = formNNN (opField w) 0 := by
  apply BitVec.eq_of_getLsbD_eq
  intro k hk
  rw [formNNN_getLsbD, BitVec.getLsbD_and]
  interval_cases k <;> simp [opField]

/-- The mask of the format XY keeps the opcode nibble and the sub-opcode. -/
theorem maskOpN_eq (w : Word) : w &&& 0xF00F = formXYN (opField w) 0 0 (nField w) := by
  apply BitVec.eq_of_getLsbD_eq
  intro k hk
  rw [formXYN_getLsbD, BitVec.getLsbD_and]
  interval_cases k <;> simp [opField, nField]

/-- The mask of the format X keeps the opcode nibble and the low byte. -/
theorem maskOpNN_eq (w : Word) : w &&& 0xF0FF = formXNN (opField w) 0 (nnField w) := by
  apply BitVec.eq_of_getLsbD_eq
  intro k hk
  rw [formXNN_getLsbD, BitVec.getLsbD_and]
  interval_cases k <;> simp [opField, nnField]

end Sys2Proof
end

