-- ==== Sys2Proof/Laws/State.lean ====
section
/-! SUPPORT. What each named update does to each field of the state, and to the reads built on the fields. -/

namespace Sys2Proof.Machine

variable (s : State)

/-! ### State.setReg -/

@[simp] theorem State.setReg_v (x : Reg) (b : Byte) : (s.setReg x b).v = s.v.set x b := rfl
@[simp] theorem State.setReg_i (x : Reg) (b : Byte) : (s.setReg x b).i = s.i := rfl
@[simp] theorem State.setReg_pc (x : Reg) (b : Byte) : (s.setReg x b).pc = s.pc := rfl
@[simp] theorem State.setReg_stack (x : Reg) (b : Byte) : (s.setReg x b).stack = s.stack := rfl
@[simp] theorem State.setReg_sp (x : Reg) (b : Byte) : (s.setReg x b).sp = s.sp := rfl
@[simp] theorem State.setReg_dt (x : Reg) (b : Byte) : (s.setReg x b).dt = s.dt := rfl
@[simp] theorem State.setReg_st (x : Reg) (b : Byte) : (s.setReg x b).st = s.st := rfl
@[simp] theorem State.setReg_mem (x : Reg) (b : Byte) : (s.setReg x b).mem = s.mem := rfl
@[simp] theorem State.setReg_run (x : Reg) (b : Byte) : (s.setReg x b).run = s.run := rfl
@[simp] theorem State.setReg_ir (x : Reg) (b : Byte) : (s.setReg x b).ir = s.ir := rfl
@[simp] theorem State.setReg_fault (x : Reg) (b : Byte) : (s.setReg x b).fault = s.fault := rfl
@[simp] theorem State.setReg_fb (x : Reg) (b : Byte) : (s.setReg x b).fb = s.fb := rfl
@[simp] theorem State.setReg_fbDirty (x : Reg) (b : Byte) : (s.setReg x b).fbDirty = s.fbDirty := rfl
@[simp] theorem State.setReg_keys (x : Reg) (b : Byte) : (s.setReg x b).keys = s.keys := rfl
@[simp] theorem State.setReg_timerEn (x : Reg) (b : Byte) : (s.setReg x b).timerEn = s.timerEn := rfl
@[simp] theorem State.setReg_cfg (x : Reg) (b : Byte) : (s.setReg x b).cfg = s.cfg := rfl
@[simp] theorem State.setReg_inputs (x : Reg) (b : Byte) : (s.setReg x b).inputs = s.inputs := rfl
@[simp] theorem State.setReg_draws (x : Reg) (b : Byte) : (s.setReg x b).draws = s.draws := rfl
@[simp] theorem State.setReg_byteAt (x : Reg) (b : Byte) (k : Nat) : (s.setReg x b).byteAt k = s.byteAt k := rfl
@[simp] theorem State.setReg_pressed (x : Reg) (b : Byte) (j : Key) : (s.setReg x b).pressed j = s.pressed j := rfl
@[simp] theorem State.setReg_pixel (x : Reg) (b : Byte) (y : Fin 32) (c : Fin 64) : (s.setReg x b).pixel y c = s.pixel y c := rfl
@[simp] theorem State.setReg_instrAddr (x : Reg) (b : Byte) : (s.setReg x b).instrAddr = s.instrAddr := rfl

/-! ### State.setI -/

@[simp] theorem State.setI_v (w : Word) : (s.setI w).v = s.v := rfl
@[simp] theorem State.setI_i (w : Word) : (s.setI w).i = w := rfl
@[simp] theorem State.setI_pc (w : Word) : (s.setI w).pc = s.pc := rfl
@[simp] theorem State.setI_stack (w : Word) : (s.setI w).stack = s.stack := rfl
@[simp] theorem State.setI_sp (w : Word) : (s.setI w).sp = s.sp := rfl
@[simp] theorem State.setI_dt (w : Word) : (s.setI w).dt = s.dt := rfl
@[simp] theorem State.setI_st (w : Word) : (s.setI w).st = s.st := rfl
@[simp] theorem State.setI_mem (w : Word) : (s.setI w).mem = s.mem := rfl
@[simp] theorem State.setI_run (w : Word) : (s.setI w).run = s.run := rfl
@[simp] theorem State.setI_ir (w : Word) : (s.setI w).ir = s.ir := rfl
@[simp] theorem State.setI_fault (w : Word) : (s.setI w).fault = s.fault := rfl
@[simp] theorem State.setI_fb (w : Word) : (s.setI w).fb = s.fb := rfl
@[simp] theorem State.setI_fbDirty (w : Word) : (s.setI w).fbDirty = s.fbDirty := rfl
@[simp] theorem State.setI_keys (w : Word) : (s.setI w).keys = s.keys := rfl
@[simp] theorem State.setI_timerEn (w : Word) : (s.setI w).timerEn = s.timerEn := rfl
@[simp] theorem State.setI_cfg (w : Word) : (s.setI w).cfg = s.cfg := rfl
@[simp] theorem State.setI_inputs (w : Word) : (s.setI w).inputs = s.inputs := rfl
@[simp] theorem State.setI_draws (w : Word) : (s.setI w).draws = s.draws := rfl
@[simp] theorem State.setI_reg (w : Word) (y : Reg) : (s.setI w).reg y = s.reg y := rfl
@[simp] theorem State.setI_byteAt (w : Word) (k : Nat) : (s.setI w).byteAt k = s.byteAt k := rfl
@[simp] theorem State.setI_pressed (w : Word) (j : Key) : (s.setI w).pressed j = s.pressed j := rfl
@[simp] theorem State.setI_pixel (w : Word) (y : Fin 32) (c : Fin 64) : (s.setI w).pixel y c = s.pixel y c := rfl
@[simp] theorem State.setI_instrAddr (w : Word) : (s.setI w).instrAddr = s.instrAddr := rfl

/-! ### State.setPc -/

@[simp] theorem State.setPc_v (w : Word) : (s.setPc w).v = s.v := rfl
@[simp] theorem State.setPc_i (w : Word) : (s.setPc w).i = s.i := rfl
@[simp] theorem State.setPc_pc (w : Word) : (s.setPc w).pc = w := rfl
@[simp] theorem State.setPc_stack (w : Word) : (s.setPc w).stack = s.stack := rfl
@[simp] theorem State.setPc_sp (w : Word) : (s.setPc w).sp = s.sp := rfl
@[simp] theorem State.setPc_dt (w : Word) : (s.setPc w).dt = s.dt := rfl
@[simp] theorem State.setPc_st (w : Word) : (s.setPc w).st = s.st := rfl
@[simp] theorem State.setPc_mem (w : Word) : (s.setPc w).mem = s.mem := rfl
@[simp] theorem State.setPc_run (w : Word) : (s.setPc w).run = s.run := rfl
@[simp] theorem State.setPc_ir (w : Word) : (s.setPc w).ir = s.ir := rfl
@[simp] theorem State.setPc_fault (w : Word) : (s.setPc w).fault = s.fault := rfl
@[simp] theorem State.setPc_fb (w : Word) : (s.setPc w).fb = s.fb := rfl
@[simp] theorem State.setPc_fbDirty (w : Word) : (s.setPc w).fbDirty = s.fbDirty := rfl
@[simp] theorem State.setPc_keys (w : Word) : (s.setPc w).keys = s.keys := rfl
@[simp] theorem State.setPc_timerEn (w : Word) : (s.setPc w).timerEn = s.timerEn := rfl
@[simp] theorem State.setPc_cfg (w : Word) : (s.setPc w).cfg = s.cfg := rfl
@[simp] theorem State.setPc_inputs (w : Word) : (s.setPc w).inputs = s.inputs := rfl
@[simp] theorem State.setPc_draws (w : Word) : (s.setPc w).draws = s.draws := rfl
@[simp] theorem State.setPc_reg (w : Word) (y : Reg) : (s.setPc w).reg y = s.reg y := rfl
@[simp] theorem State.setPc_byteAt (w : Word) (k : Nat) : (s.setPc w).byteAt k = s.byteAt k := rfl
@[simp] theorem State.setPc_pressed (w : Word) (j : Key) : (s.setPc w).pressed j = s.pressed j := rfl
@[simp] theorem State.setPc_pixel (w : Word) (y : Fin 32) (c : Fin 64) : (s.setPc w).pixel y c = s.pixel y c := rfl

/-! ### State.setRun -/

@[simp] theorem State.setRun_v (r : RunState) : (s.setRun r).v = s.v := rfl
@[simp] theorem State.setRun_i (r : RunState) : (s.setRun r).i = s.i := rfl
@[simp] theorem State.setRun_pc (r : RunState) : (s.setRun r).pc = s.pc := rfl
@[simp] theorem State.setRun_stack (r : RunState) : (s.setRun r).stack = s.stack := rfl
@[simp] theorem State.setRun_sp (r : RunState) : (s.setRun r).sp = s.sp := rfl
@[simp] theorem State.setRun_dt (r : RunState) : (s.setRun r).dt = s.dt := rfl
@[simp] theorem State.setRun_st (r : RunState) : (s.setRun r).st = s.st := rfl
@[simp] theorem State.setRun_mem (r : RunState) : (s.setRun r).mem = s.mem := rfl
@[simp] theorem State.setRun_run (r : RunState) : (s.setRun r).run = r := rfl
@[simp] theorem State.setRun_ir (r : RunState) : (s.setRun r).ir = s.ir := rfl
@[simp] theorem State.setRun_fault (r : RunState) : (s.setRun r).fault = s.fault := rfl
@[simp] theorem State.setRun_fb (r : RunState) : (s.setRun r).fb = s.fb := rfl
@[simp] theorem State.setRun_fbDirty (r : RunState) : (s.setRun r).fbDirty = s.fbDirty := rfl
@[simp] theorem State.setRun_keys (r : RunState) : (s.setRun r).keys = s.keys := rfl
@[simp] theorem State.setRun_timerEn (r : RunState) : (s.setRun r).timerEn = s.timerEn := rfl
@[simp] theorem State.setRun_cfg (r : RunState) : (s.setRun r).cfg = s.cfg := rfl
@[simp] theorem State.setRun_inputs (r : RunState) : (s.setRun r).inputs = s.inputs := rfl
@[simp] theorem State.setRun_draws (r : RunState) : (s.setRun r).draws = s.draws := rfl
@[simp] theorem State.setRun_reg (r : RunState) (y : Reg) : (s.setRun r).reg y = s.reg y := rfl
@[simp] theorem State.setRun_byteAt (r : RunState) (k : Nat) : (s.setRun r).byteAt k = s.byteAt k := rfl
@[simp] theorem State.setRun_pressed (r : RunState) (j : Key) : (s.setRun r).pressed j = s.pressed j := rfl
@[simp] theorem State.setRun_pixel (r : RunState) (y : Fin 32) (c : Fin 64) : (s.setRun r).pixel y c = s.pixel y c := rfl
@[simp] theorem State.setRun_instrAddr (r : RunState) : (s.setRun r).instrAddr = s.instrAddr := rfl

/-! ### State.skip -/

@[simp] theorem State.skip_v : s.skip.v = s.v := rfl
@[simp] theorem State.skip_i : s.skip.i = s.i := rfl
@[simp] theorem State.skip_pc : s.skip.pc = s.pc + 2 := rfl
@[simp] theorem State.skip_stack : s.skip.stack = s.stack := rfl
@[simp] theorem State.skip_sp : s.skip.sp = s.sp := rfl
@[simp] theorem State.skip_dt : s.skip.dt = s.dt := rfl
@[simp] theorem State.skip_st : s.skip.st = s.st := rfl
@[simp] theorem State.skip_mem : s.skip.mem = s.mem := rfl
@[simp] theorem State.skip_run : s.skip.run = s.run := rfl
@[simp] theorem State.skip_ir : s.skip.ir = s.ir := rfl
@[simp] theorem State.skip_fault : s.skip.fault = s.fault := rfl
@[simp] theorem State.skip_fb : s.skip.fb = s.fb := rfl
@[simp] theorem State.skip_fbDirty : s.skip.fbDirty = s.fbDirty := rfl
@[simp] theorem State.skip_keys : s.skip.keys = s.keys := rfl
@[simp] theorem State.skip_timerEn : s.skip.timerEn = s.timerEn := rfl
@[simp] theorem State.skip_cfg : s.skip.cfg = s.cfg := rfl
@[simp] theorem State.skip_inputs : s.skip.inputs = s.inputs := rfl
@[simp] theorem State.skip_draws : s.skip.draws = s.draws := rfl
@[simp] theorem State.skip_reg (y : Reg) : s.skip.reg y = s.reg y := rfl
@[simp] theorem State.skip_byteAt (k : Nat) : s.skip.byteAt k = s.byteAt k := rfl
@[simp] theorem State.skip_pressed (j : Key) : s.skip.pressed j = s.pressed j := rfl
@[simp] theorem State.skip_pixel (y : Fin 32) (c : Fin 64) : s.skip.pixel y c = s.pixel y c := rfl

/-! ### State.fetched -/

@[simp] theorem State.fetched_v (w : Word) : (s.fetched w).v = s.v := rfl
@[simp] theorem State.fetched_i (w : Word) : (s.fetched w).i = s.i := rfl
@[simp] theorem State.fetched_pc (w : Word) : (s.fetched w).pc = s.pc + 2 := rfl
@[simp] theorem State.fetched_stack (w : Word) : (s.fetched w).stack = s.stack := rfl
@[simp] theorem State.fetched_sp (w : Word) : (s.fetched w).sp = s.sp := rfl
@[simp] theorem State.fetched_dt (w : Word) : (s.fetched w).dt = s.dt := rfl
@[simp] theorem State.fetched_st (w : Word) : (s.fetched w).st = s.st := rfl
@[simp] theorem State.fetched_mem (w : Word) : (s.fetched w).mem = s.mem := rfl
@[simp] theorem State.fetched_run (w : Word) : (s.fetched w).run = s.run := rfl
@[simp] theorem State.fetched_ir (w : Word) : (s.fetched w).ir = w := rfl
@[simp] theorem State.fetched_fault (w : Word) : (s.fetched w).fault = s.fault := rfl
@[simp] theorem State.fetched_fb (w : Word) : (s.fetched w).fb = s.fb := rfl
@[simp] theorem State.fetched_fbDirty (w : Word) : (s.fetched w).fbDirty = s.fbDirty := rfl
@[simp] theorem State.fetched_keys (w : Word) : (s.fetched w).keys = s.keys := rfl
@[simp] theorem State.fetched_timerEn (w : Word) : (s.fetched w).timerEn = s.timerEn := rfl
@[simp] theorem State.fetched_cfg (w : Word) : (s.fetched w).cfg = s.cfg := rfl
@[simp] theorem State.fetched_inputs (w : Word) : (s.fetched w).inputs = s.inputs := rfl
@[simp] theorem State.fetched_draws (w : Word) : (s.fetched w).draws = s.draws := rfl
@[simp] theorem State.fetched_reg (w : Word) (y : Reg) : (s.fetched w).reg y = s.reg y := rfl
@[simp] theorem State.fetched_byteAt (w : Word) (k : Nat) : (s.fetched w).byteAt k = s.byteAt k := rfl
@[simp] theorem State.fetched_pressed (w : Word) (j : Key) : (s.fetched w).pressed j = s.pressed j := rfl
@[simp] theorem State.fetched_pixel (w : Word) (y : Fin 32) (c : Fin 64) : (s.fetched w).pixel y c = s.pixel y c := rfl

/-! ### State.store -/

@[simp] theorem State.store_v (a : Nat) (bs : List Byte) : (s.store a bs).v = s.v := rfl
@[simp] theorem State.store_i (a : Nat) (bs : List Byte) : (s.store a bs).i = s.i := rfl
@[simp] theorem State.store_pc (a : Nat) (bs : List Byte) : (s.store a bs).pc = s.pc := rfl
@[simp] theorem State.store_stack (a : Nat) (bs : List Byte) : (s.store a bs).stack = s.stack := rfl
@[simp] theorem State.store_sp (a : Nat) (bs : List Byte) : (s.store a bs).sp = s.sp := rfl
@[simp] theorem State.store_dt (a : Nat) (bs : List Byte) : (s.store a bs).dt = s.dt := rfl
@[simp] theorem State.store_st (a : Nat) (bs : List Byte) : (s.store a bs).st = s.st := rfl
@[simp] theorem State.store_mem (a : Nat) (bs : List Byte) : (s.store a bs).mem = Memory.writeAll s.cfg.font s.mem a bs := rfl
@[simp] theorem State.store_run (a : Nat) (bs : List Byte) : (s.store a bs).run = s.run := rfl
@[simp] theorem State.store_ir (a : Nat) (bs : List Byte) : (s.store a bs).ir = s.ir := rfl
@[simp] theorem State.store_fault (a : Nat) (bs : List Byte) : (s.store a bs).fault = s.fault := rfl
@[simp] theorem State.store_fb (a : Nat) (bs : List Byte) : (s.store a bs).fb = s.fb := rfl
@[simp] theorem State.store_fbDirty (a : Nat) (bs : List Byte) : (s.store a bs).fbDirty = s.fbDirty := rfl
@[simp] theorem State.store_keys (a : Nat) (bs : List Byte) : (s.store a bs).keys = s.keys := rfl
@[simp] theorem State.store_timerEn (a : Nat) (bs : List Byte) : (s.store a bs).timerEn = s.timerEn := rfl
@[simp] theorem State.store_cfg (a : Nat) (bs : List Byte) : (s.store a bs).cfg = s.cfg := rfl
@[simp] theorem State.store_inputs (a : Nat) (bs : List Byte) : (s.store a bs).inputs = s.inputs := rfl
@[simp] theorem State.store_draws (a : Nat) (bs : List Byte) : (s.store a bs).draws = s.draws := rfl
@[simp] theorem State.store_reg (a : Nat) (bs : List Byte) (y : Reg) : (s.store a bs).reg y = s.reg y := rfl
@[simp] theorem State.store_pressed (a : Nat) (bs : List Byte) (j : Key) : (s.store a bs).pressed j = s.pressed j := rfl
@[simp] theorem State.store_pixel (a : Nat) (bs : List Byte) (y : Fin 32) (c : Fin 64) : (s.store a bs).pixel y c = s.pixel y c := rfl
@[simp] theorem State.store_instrAddr (a : Nat) (bs : List Byte) : (s.store a bs).instrAddr = s.instrAddr := rfl

/-! ### raise -/

@[simp] theorem raise_v (e : FaultCause) (p : Word) : (raise e p s).v = s.v := rfl
@[simp] theorem raise_i (e : FaultCause) (p : Word) : (raise e p s).i = s.i := rfl
@[simp] theorem raise_pc (e : FaultCause) (p : Word) : (raise e p s).pc = p := rfl
@[simp] theorem raise_stack (e : FaultCause) (p : Word) : (raise e p s).stack = s.stack := rfl
@[simp] theorem raise_sp (e : FaultCause) (p : Word) : (raise e p s).sp = s.sp := rfl
@[simp] theorem raise_dt (e : FaultCause) (p : Word) : (raise e p s).dt = s.dt := rfl
@[simp] theorem raise_st (e : FaultCause) (p : Word) : (raise e p s).st = s.st := rfl
@[simp] theorem raise_mem (e : FaultCause) (p : Word) : (raise e p s).mem = s.mem := rfl
@[simp] theorem raise_run (e : FaultCause) (p : Word) : (raise e p s).run = .faulted := rfl
@[simp] theorem raise_ir (e : FaultCause) (p : Word) : (raise e p s).ir = s.ir := rfl
@[simp] theorem raise_fault (e : FaultCause) (p : Word) : (raise e p s).fault = some ⟨e, p⟩ := rfl
@[simp] theorem raise_fb (e : FaultCause) (p : Word) : (raise e p s).fb = s.fb := rfl
@[simp] theorem raise_fbDirty (e : FaultCause) (p : Word) : (raise e p s).fbDirty = s.fbDirty := rfl
@[simp] theorem raise_keys (e : FaultCause) (p : Word) : (raise e p s).keys = s.keys := rfl
@[simp] theorem raise_timerEn (e : FaultCause) (p : Word) : (raise e p s).timerEn = s.timerEn := rfl
@[simp] theorem raise_cfg (e : FaultCause) (p : Word) : (raise e p s).cfg = s.cfg := rfl
@[simp] theorem raise_inputs (e : FaultCause) (p : Word) : (raise e p s).inputs = s.inputs := rfl
@[simp] theorem raise_draws (e : FaultCause) (p : Word) : (raise e p s).draws = s.draws := rfl
@[simp] theorem raise_reg (e : FaultCause) (p : Word) (y : Reg) : (raise e p s).reg y = s.reg y := rfl
@[simp] theorem raise_byteAt (e : FaultCause) (p : Word) (k : Nat) : (raise e p s).byteAt k = s.byteAt k := rfl
@[simp] theorem raise_pressed (e : FaultCause) (p : Word) (j : Key) : (raise e p s).pressed j = s.pressed j := rfl
@[simp] theorem raise_pixel (e : FaultCause) (p : Word) (y : Fin 32) (c : Fin 64) : (raise e p s).pixel y c = s.pixel y c := rfl

/-! ### raiseInstr -/

@[simp] theorem raiseInstr_v (e : FaultCause) : (raiseInstr e s).v = s.v := rfl
@[simp] theorem raiseInstr_i (e : FaultCause) : (raiseInstr e s).i = s.i := rfl
@[simp] theorem raiseInstr_pc (e : FaultCause) : (raiseInstr e s).pc = s.pc - 2 := rfl
@[simp] theorem raiseInstr_stack (e : FaultCause) : (raiseInstr e s).stack = s.stack := rfl
@[simp] theorem raiseInstr_sp (e : FaultCause) : (raiseInstr e s).sp = s.sp := rfl
@[simp] theorem raiseInstr_dt (e : FaultCause) : (raiseInstr e s).dt = s.dt := rfl
@[simp] theorem raiseInstr_st (e : FaultCause) : (raiseInstr e s).st = s.st := rfl
@[simp] theorem raiseInstr_mem (e : FaultCause) : (raiseInstr e s).mem = s.mem := rfl
@[simp] theorem raiseInstr_run (e : FaultCause) : (raiseInstr e s).run = .faulted := rfl
@[simp] theorem raiseInstr_ir (e : FaultCause) : (raiseInstr e s).ir = s.ir := rfl
@[simp] theorem raiseInstr_fault (e : FaultCause) : (raiseInstr e s).fault = some ⟨e, s.pc - 2⟩ := rfl
@[simp] theorem raiseInstr_fb (e : FaultCause) : (raiseInstr e s).fb = s.fb := rfl
@[simp] theorem raiseInstr_fbDirty (e : FaultCause) : (raiseInstr e s).fbDirty = s.fbDirty := rfl
@[simp] theorem raiseInstr_keys (e : FaultCause) : (raiseInstr e s).keys = s.keys := rfl
@[simp] theorem raiseInstr_timerEn (e : FaultCause) : (raiseInstr e s).timerEn = s.timerEn := rfl
@[simp] theorem raiseInstr_cfg (e : FaultCause) : (raiseInstr e s).cfg = s.cfg := rfl
@[simp] theorem raiseInstr_inputs (e : FaultCause) : (raiseInstr e s).inputs = s.inputs := rfl
@[simp] theorem raiseInstr_draws (e : FaultCause) : (raiseInstr e s).draws = s.draws := rfl
@[simp] theorem raiseInstr_reg (e : FaultCause) (y : Reg) : (raiseInstr e s).reg y = s.reg y := rfl
@[simp] theorem raiseInstr_byteAt (e : FaultCause) (k : Nat) : (raiseInstr e s).byteAt k = s.byteAt k := rfl
@[simp] theorem raiseInstr_pressed (e : FaultCause) (j : Key) : (raiseInstr e s).pressed j = s.pressed j := rfl
@[simp] theorem raiseInstr_pixel (e : FaultCause) (y : Fin 32) (c : Fin 64) : (raiseInstr e s).pixel y c = s.pixel y c := rfl

/-! ### bootBlank -/

@[simp] theorem bootBlank_v : (bootBlank s).v = Vector.replicate 16 0 := rfl
@[simp] theorem bootBlank_i : (bootBlank s).i = 0 := rfl
@[simp] theorem bootBlank_pc : (bootBlank s).pc = 0x0200 := rfl
@[simp] theorem bootBlank_stack : (bootBlank s).stack = Vector.replicate 16 0 := rfl
@[simp] theorem bootBlank_sp : (bootBlank s).sp = 0 := rfl
@[simp] theorem bootBlank_dt : (bootBlank s).dt = 0 := rfl
@[simp] theorem bootBlank_st : (bootBlank s).st = 0 := rfl
@[simp] theorem bootBlank_mem : (bootBlank s).mem = [] := rfl
@[simp] theorem bootBlank_run : (bootBlank s).run = .running := rfl
@[simp] theorem bootBlank_ir : (bootBlank s).ir = 0 := rfl
@[simp] theorem bootBlank_fault : (bootBlank s).fault = none := rfl
@[simp] theorem bootBlank_fb : (bootBlank s).fb = if s.cfg.fbClearOnReset then blankScreen else s.fb := rfl
@[simp] theorem bootBlank_fbDirty : (bootBlank s).fbDirty = true := rfl
@[simp] theorem bootBlank_keys : (bootBlank s).keys = s.keys := rfl
@[simp] theorem bootBlank_timerEn : (bootBlank s).timerEn = s.timerEn := rfl
@[simp] theorem bootBlank_cfg : (bootBlank s).cfg = s.cfg := rfl
@[simp] theorem bootBlank_inputs : (bootBlank s).inputs = s.inputs := rfl
@[simp] theorem bootBlank_draws : (bootBlank s).draws = s.draws := rfl
@[simp] theorem bootBlank_pressed (j : Key) : (bootBlank s).pressed j = s.pressed j := rfl

/-! ### State.setScreen -/

@[simp] theorem State.setScreen_v (g : FrameBuffer) : (s.setScreen g).v = s.v := rfl
@[simp] theorem State.setScreen_i (g : FrameBuffer) : (s.setScreen g).i = s.i := rfl
@[simp] theorem State.setScreen_pc (g : FrameBuffer) : (s.setScreen g).pc = s.pc := rfl
@[simp] theorem State.setScreen_stack (g : FrameBuffer) : (s.setScreen g).stack = s.stack := rfl
@[simp] theorem State.setScreen_sp (g : FrameBuffer) : (s.setScreen g).sp = s.sp := rfl
@[simp] theorem State.setScreen_dt (g : FrameBuffer) : (s.setScreen g).dt = s.dt := rfl
@[simp] theorem State.setScreen_st (g : FrameBuffer) : (s.setScreen g).st = s.st := rfl
@[simp] theorem State.setScreen_mem (g : FrameBuffer) : (s.setScreen g).mem = s.mem := rfl
@[simp] theorem State.setScreen_run (g : FrameBuffer) : (s.setScreen g).run = s.run := rfl
@[simp] theorem State.setScreen_ir (g : FrameBuffer) : (s.setScreen g).ir = s.ir := rfl
@[simp] theorem State.setScreen_fault (g : FrameBuffer) : (s.setScreen g).fault = s.fault := rfl
@[simp] theorem State.setScreen_fb (g : FrameBuffer) : (s.setScreen g).fb = g := rfl
@[simp] theorem State.setScreen_fbDirty (g : FrameBuffer) : (s.setScreen g).fbDirty = true := rfl
@[simp] theorem State.setScreen_keys (g : FrameBuffer) : (s.setScreen g).keys = s.keys := rfl
@[simp] theorem State.setScreen_timerEn (g : FrameBuffer) : (s.setScreen g).timerEn = s.timerEn := rfl
@[simp] theorem State.setScreen_cfg (g : FrameBuffer) : (s.setScreen g).cfg = s.cfg := rfl
@[simp] theorem State.setScreen_inputs (g : FrameBuffer) : (s.setScreen g).inputs = s.inputs := rfl
@[simp] theorem State.setScreen_draws (g : FrameBuffer) : (s.setScreen g).draws = s.draws := rfl
@[simp] theorem State.setScreen_reg (g : FrameBuffer) (y : Reg) : (s.setScreen g).reg y = s.reg y := rfl
@[simp] theorem State.setScreen_byteAt (g : FrameBuffer) (k : Nat) : (s.setScreen g).byteAt k = s.byteAt k := rfl
@[simp] theorem State.setScreen_pressed (g : FrameBuffer) (j : Key) : (s.setScreen g).pressed j = s.pressed j := rfl
@[simp] theorem State.setScreen_instrAddr (g : FrameBuffer) : (s.setScreen g).instrAddr = s.instrAddr := rfl

/-! ### State.clearDirty -/

@[simp] theorem State.clearDirty_v : s.clearDirty.v = s.v := rfl
@[simp] theorem State.clearDirty_i : s.clearDirty.i = s.i := rfl
@[simp] theorem State.clearDirty_pc : s.clearDirty.pc = s.pc := rfl
@[simp] theorem State.clearDirty_stack : s.clearDirty.stack = s.stack := rfl
@[simp] theorem State.clearDirty_sp : s.clearDirty.sp = s.sp := rfl
@[simp] theorem State.clearDirty_dt : s.clearDirty.dt = s.dt := rfl
@[simp] theorem State.clearDirty_st : s.clearDirty.st = s.st := rfl
@[simp] theorem State.clearDirty_mem : s.clearDirty.mem = s.mem := rfl
@[simp] theorem State.clearDirty_run : s.clearDirty.run = s.run := rfl
@[simp] theorem State.clearDirty_ir : s.clearDirty.ir = s.ir := rfl
@[simp] theorem State.clearDirty_fault : s.clearDirty.fault = s.fault := rfl
@[simp] theorem State.clearDirty_fb : s.clearDirty.fb = s.fb := rfl
@[simp] theorem State.clearDirty_fbDirty : s.clearDirty.fbDirty = false := rfl
@[simp] theorem State.clearDirty_keys : s.clearDirty.keys = s.keys := rfl
@[simp] theorem State.clearDirty_timerEn : s.clearDirty.timerEn = s.timerEn := rfl
@[simp] theorem State.clearDirty_cfg : s.clearDirty.cfg = s.cfg := rfl
@[simp] theorem State.clearDirty_inputs : s.clearDirty.inputs = s.inputs := rfl
@[simp] theorem State.clearDirty_draws : s.clearDirty.draws = s.draws := rfl
@[simp] theorem State.clearDirty_reg (y : Reg) : s.clearDirty.reg y = s.reg y := rfl
@[simp] theorem State.clearDirty_byteAt (k : Nat) : s.clearDirty.byteAt k = s.byteAt k := rfl
@[simp] theorem State.clearDirty_pressed (j : Key) : s.clearDirty.pressed j = s.pressed j := rfl
@[simp] theorem State.clearDirty_pixel (y : Fin 32) (c : Fin 64) : s.clearDirty.pixel y c = s.pixel y c := rfl
@[simp] theorem State.clearDirty_instrAddr : s.clearDirty.instrAddr = s.instrAddr := rfl

/-! ### State.setKey -/

@[simp] theorem State.setKey_v (k : Key) (down : Bool) : (s.setKey k down).v = s.v := rfl
@[simp] theorem State.setKey_i (k : Key) (down : Bool) : (s.setKey k down).i = s.i := rfl
@[simp] theorem State.setKey_pc (k : Key) (down : Bool) : (s.setKey k down).pc = s.pc := rfl
@[simp] theorem State.setKey_stack (k : Key) (down : Bool) : (s.setKey k down).stack = s.stack := rfl
@[simp] theorem State.setKey_sp (k : Key) (down : Bool) : (s.setKey k down).sp = s.sp := rfl
@[simp] theorem State.setKey_dt (k : Key) (down : Bool) : (s.setKey k down).dt = s.dt := rfl
@[simp] theorem State.setKey_st (k : Key) (down : Bool) : (s.setKey k down).st = s.st := rfl
@[simp] theorem State.setKey_mem (k : Key) (down : Bool) : (s.setKey k down).mem = s.mem := rfl
@[simp] theorem State.setKey_run (k : Key) (down : Bool) : (s.setKey k down).run = s.run := rfl
@[simp] theorem State.setKey_ir (k : Key) (down : Bool) : (s.setKey k down).ir = s.ir := rfl
@[simp] theorem State.setKey_fault (k : Key) (down : Bool) : (s.setKey k down).fault = s.fault := rfl
@[simp] theorem State.setKey_fb (k : Key) (down : Bool) : (s.setKey k down).fb = s.fb := rfl
@[simp] theorem State.setKey_fbDirty (k : Key) (down : Bool) : (s.setKey k down).fbDirty = s.fbDirty := rfl
@[simp] theorem State.setKey_keys (k : Key) (down : Bool) : (s.setKey k down).keys = s.keys.set k down := rfl
@[simp] theorem State.setKey_timerEn (k : Key) (down : Bool) : (s.setKey k down).timerEn = s.timerEn := rfl
@[simp] theorem State.setKey_cfg (k : Key) (down : Bool) : (s.setKey k down).cfg = s.cfg := rfl
@[simp] theorem State.setKey_inputs (k : Key) (down : Bool) : (s.setKey k down).inputs = s.inputs := rfl
@[simp] theorem State.setKey_draws (k : Key) (down : Bool) : (s.setKey k down).draws = s.draws := rfl
@[simp] theorem State.setKey_reg (k : Key) (down : Bool) (y : Reg) : (s.setKey k down).reg y = s.reg y := rfl
@[simp] theorem State.setKey_byteAt (k : Key) (down : Bool) (adr : Nat) : (s.setKey k down).byteAt adr = s.byteAt adr := rfl
@[simp] theorem State.setKey_pixel (k : Key) (down : Bool) (y : Fin 32) (c : Fin 64) : (s.setKey k down).pixel y c = s.pixel y c := rfl
@[simp] theorem State.setKey_instrAddr (k : Key) (down : Bool) : (s.setKey k down).instrAddr = s.instrAddr := rfl

/-! ### State.setDt -/

@[simp] theorem State.setDt_v (b : Byte) : (s.setDt b).v = s.v := rfl
@[simp] theorem State.setDt_i (b : Byte) : (s.setDt b).i = s.i := rfl
@[simp] theorem State.setDt_pc (b : Byte) : (s.setDt b).pc = s.pc := rfl
@[simp] theorem State.setDt_stack (b : Byte) : (s.setDt b).stack = s.stack := rfl
@[simp] theorem State.setDt_sp (b : Byte) : (s.setDt b).sp = s.sp := rfl
@[simp] theorem State.setDt_dt (b : Byte) : (s.setDt b).dt = b := rfl
@[simp] theorem State.setDt_st (b : Byte) : (s.setDt b).st = s.st := rfl
@[simp] theorem State.setDt_mem (b : Byte) : (s.setDt b).mem = s.mem := rfl
@[simp] theorem State.setDt_run (b : Byte) : (s.setDt b).run = s.run := rfl
@[simp] theorem State.setDt_ir (b : Byte) : (s.setDt b).ir = s.ir := rfl
@[simp] theorem State.setDt_fault (b : Byte) : (s.setDt b).fault = s.fault := rfl
@[simp] theorem State.setDt_fb (b : Byte) : (s.setDt b).fb = s.fb := rfl
@[simp] theorem State.setDt_fbDirty (b : Byte) : (s.setDt b).fbDirty = s.fbDirty := rfl
@[simp] theorem State.setDt_keys (b : Byte) : (s.setDt b).keys = s.keys := rfl
@[simp] theorem State.setDt_timerEn (b : Byte) : (s.setDt b).timerEn = s.timerEn := rfl
@[simp] theorem State.setDt_cfg (b : Byte) : (s.setDt b).cfg = s.cfg := rfl
@[simp] theorem State.setDt_inputs (b : Byte) : (s.setDt b).inputs = s.inputs := rfl
@[simp] theorem State.setDt_draws (b : Byte) : (s.setDt b).draws = s.draws := rfl
@[simp] theorem State.setDt_reg (b : Byte) (y : Reg) : (s.setDt b).reg y = s.reg y := rfl
@[simp] theorem State.setDt_byteAt (b : Byte) (k : Nat) : (s.setDt b).byteAt k = s.byteAt k := rfl
@[simp] theorem State.setDt_pressed (b : Byte) (j : Key) : (s.setDt b).pressed j = s.pressed j := rfl
@[simp] theorem State.setDt_pixel (b : Byte) (y : Fin 32) (c : Fin 64) : (s.setDt b).pixel y c = s.pixel y c := rfl
@[simp] theorem State.setDt_instrAddr (b : Byte) : (s.setDt b).instrAddr = s.instrAddr := rfl

/-! ### State.setSt -/

@[simp] theorem State.setSt_v (b : Byte) : (s.setSt b).v = s.v := rfl
@[simp] theorem State.setSt_i (b : Byte) : (s.setSt b).i = s.i := rfl
@[simp] theorem State.setSt_pc (b : Byte) : (s.setSt b).pc = s.pc := rfl
@[simp] theorem State.setSt_stack (b : Byte) : (s.setSt b).stack = s.stack := rfl
@[simp] theorem State.setSt_sp (b : Byte) : (s.setSt b).sp = s.sp := rfl
@[simp] theorem State.setSt_dt (b : Byte) : (s.setSt b).dt = s.dt := rfl
@[simp] theorem State.setSt_st (b : Byte) : (s.setSt b).st = b := rfl
@[simp] theorem State.setSt_mem (b : Byte) : (s.setSt b).mem = s.mem := rfl
@[simp] theorem State.setSt_run (b : Byte) : (s.setSt b).run = s.run := rfl
@[simp] theorem State.setSt_ir (b : Byte) : (s.setSt b).ir = s.ir := rfl
@[simp] theorem State.setSt_fault (b : Byte) : (s.setSt b).fault = s.fault := rfl
@[simp] theorem State.setSt_fb (b : Byte) : (s.setSt b).fb = s.fb := rfl
@[simp] theorem State.setSt_fbDirty (b : Byte) : (s.setSt b).fbDirty = s.fbDirty := rfl
@[simp] theorem State.setSt_keys (b : Byte) : (s.setSt b).keys = s.keys := rfl
@[simp] theorem State.setSt_timerEn (b : Byte) : (s.setSt b).timerEn = s.timerEn := rfl
@[simp] theorem State.setSt_cfg (b : Byte) : (s.setSt b).cfg = s.cfg := rfl
@[simp] theorem State.setSt_inputs (b : Byte) : (s.setSt b).inputs = s.inputs := rfl
@[simp] theorem State.setSt_draws (b : Byte) : (s.setSt b).draws = s.draws := rfl
@[simp] theorem State.setSt_reg (b : Byte) (y : Reg) : (s.setSt b).reg y = s.reg y := rfl
@[simp] theorem State.setSt_byteAt (b : Byte) (k : Nat) : (s.setSt b).byteAt k = s.byteAt k := rfl
@[simp] theorem State.setSt_pressed (b : Byte) (j : Key) : (s.setSt b).pressed j = s.pressed j := rfl
@[simp] theorem State.setSt_pixel (b : Byte) (y : Fin 32) (c : Fin 64) : (s.setSt b).pixel y c = s.pixel y c := rfl
@[simp] theorem State.setSt_instrAddr (b : Byte) : (s.setSt b).instrAddr = s.instrAddr := rfl

/-! ### State.setTimerEn -/

@[simp] theorem State.setTimerEn_v (on : Bool) : (s.setTimerEn on).v = s.v := rfl
@[simp] theorem State.setTimerEn_i (on : Bool) : (s.setTimerEn on).i = s.i := rfl
@[simp] theorem State.setTimerEn_pc (on : Bool) : (s.setTimerEn on).pc = s.pc := rfl
@[simp] theorem State.setTimerEn_stack (on : Bool) : (s.setTimerEn on).stack = s.stack := rfl
@[simp] theorem State.setTimerEn_sp (on : Bool) : (s.setTimerEn on).sp = s.sp := rfl
@[simp] theorem State.setTimerEn_dt (on : Bool) : (s.setTimerEn on).dt = s.dt := rfl
@[simp] theorem State.setTimerEn_st (on : Bool) : (s.setTimerEn on).st = s.st := rfl
@[simp] theorem State.setTimerEn_mem (on : Bool) : (s.setTimerEn on).mem = s.mem := rfl
@[simp] theorem State.setTimerEn_run (on : Bool) : (s.setTimerEn on).run = s.run := rfl
@[simp] theorem State.setTimerEn_ir (on : Bool) : (s.setTimerEn on).ir = s.ir := rfl
@[simp] theorem State.setTimerEn_fault (on : Bool) : (s.setTimerEn on).fault = s.fault := rfl
@[simp] theorem State.setTimerEn_fb (on : Bool) : (s.setTimerEn on).fb = s.fb := rfl
@[simp] theorem State.setTimerEn_fbDirty (on : Bool) : (s.setTimerEn on).fbDirty = s.fbDirty := rfl
@[simp] theorem State.setTimerEn_keys (on : Bool) : (s.setTimerEn on).keys = s.keys := rfl
@[simp] theorem State.setTimerEn_timerEn (on : Bool) : (s.setTimerEn on).timerEn = on := rfl
@[simp] theorem State.setTimerEn_cfg (on : Bool) : (s.setTimerEn on).cfg = s.cfg := rfl
@[simp] theorem State.setTimerEn_inputs (on : Bool) : (s.setTimerEn on).inputs = s.inputs := rfl
@[simp] theorem State.setTimerEn_draws (on : Bool) : (s.setTimerEn on).draws = s.draws := rfl
@[simp] theorem State.setTimerEn_reg (on : Bool) (y : Reg) : (s.setTimerEn on).reg y = s.reg y := rfl
@[simp] theorem State.setTimerEn_byteAt (on : Bool) (k : Nat) : (s.setTimerEn on).byteAt k = s.byteAt k := rfl
@[simp] theorem State.setTimerEn_pressed (on : Bool) (j : Key) : (s.setTimerEn on).pressed j = s.pressed j := rfl
@[simp] theorem State.setTimerEn_pixel (on : Bool) (y : Fin 32) (c : Fin 64) : (s.setTimerEn on).pixel y c = s.pixel y c := rfl
@[simp] theorem State.setTimerEn_instrAddr (on : Bool) : (s.setTimerEn on).instrAddr = s.instrAddr := rfl

/-! ### State.countDraw -/

@[simp] theorem State.countDraw_v : s.countDraw.v = s.v := rfl
@[simp] theorem State.countDraw_i : s.countDraw.i = s.i := rfl
@[simp] theorem State.countDraw_pc : s.countDraw.pc = s.pc := rfl
@[simp] theorem State.countDraw_stack : s.countDraw.stack = s.stack := rfl
@[simp] theorem State.countDraw_sp : s.countDraw.sp = s.sp := rfl
@[simp] theorem State.countDraw_dt : s.countDraw.dt = s.dt := rfl
@[simp] theorem State.countDraw_st : s.countDraw.st = s.st := rfl
@[simp] theorem State.countDraw_mem : s.countDraw.mem = s.mem := rfl
@[simp] theorem State.countDraw_run : s.countDraw.run = s.run := rfl
@[simp] theorem State.countDraw_ir : s.countDraw.ir = s.ir := rfl
@[simp] theorem State.countDraw_fault : s.countDraw.fault = s.fault := rfl
@[simp] theorem State.countDraw_fb : s.countDraw.fb = s.fb := rfl
@[simp] theorem State.countDraw_fbDirty : s.countDraw.fbDirty = s.fbDirty := rfl
@[simp] theorem State.countDraw_keys : s.countDraw.keys = s.keys := rfl
@[simp] theorem State.countDraw_timerEn : s.countDraw.timerEn = s.timerEn := rfl
@[simp] theorem State.countDraw_cfg : s.countDraw.cfg = s.cfg := rfl
@[simp] theorem State.countDraw_inputs : s.countDraw.inputs = s.inputs := rfl
@[simp] theorem State.countDraw_draws : s.countDraw.draws = s.draws + 1 := rfl
@[simp] theorem State.countDraw_reg (y : Reg) : s.countDraw.reg y = s.reg y := rfl
@[simp] theorem State.countDraw_byteAt (k : Nat) : s.countDraw.byteAt k = s.byteAt k := rfl
@[simp] theorem State.countDraw_pressed (j : Key) : s.countDraw.pressed j = s.pressed j := rfl
@[simp] theorem State.countDraw_pixel (y : Fin 32) (c : Fin 64) : s.countDraw.pixel y c = s.pixel y c := rfl
@[simp] theorem State.countDraw_instrAddr : s.countDraw.instrAddr = s.instrAddr := rfl

/-! ### State.setInputs -/

@[simp] theorem State.setInputs_v (rest : List Input) : (s.setInputs rest).v = s.v := rfl
@[simp] theorem State.setInputs_i (rest : List Input) : (s.setInputs rest).i = s.i := rfl
@[simp] theorem State.setInputs_pc (rest : List Input) : (s.setInputs rest).pc = s.pc := rfl
@[simp] theorem State.setInputs_stack (rest : List Input) : (s.setInputs rest).stack = s.stack := rfl
@[simp] theorem State.setInputs_sp (rest : List Input) : (s.setInputs rest).sp = s.sp := rfl
@[simp] theorem State.setInputs_dt (rest : List Input) : (s.setInputs rest).dt = s.dt := rfl
@[simp] theorem State.setInputs_st (rest : List Input) : (s.setInputs rest).st = s.st := rfl
@[simp] theorem State.setInputs_mem (rest : List Input) : (s.setInputs rest).mem = s.mem := rfl
@[simp] theorem State.setInputs_run (rest : List Input) : (s.setInputs rest).run = s.run := rfl
@[simp] theorem State.setInputs_ir (rest : List Input) : (s.setInputs rest).ir = s.ir := rfl
@[simp] theorem State.setInputs_fault (rest : List Input) : (s.setInputs rest).fault = s.fault := rfl
@[simp] theorem State.setInputs_fb (rest : List Input) : (s.setInputs rest).fb = s.fb := rfl
@[simp] theorem State.setInputs_fbDirty (rest : List Input) : (s.setInputs rest).fbDirty = s.fbDirty := rfl
@[simp] theorem State.setInputs_keys (rest : List Input) : (s.setInputs rest).keys = s.keys := rfl
@[simp] theorem State.setInputs_timerEn (rest : List Input) : (s.setInputs rest).timerEn = s.timerEn := rfl
@[simp] theorem State.setInputs_cfg (rest : List Input) : (s.setInputs rest).cfg = s.cfg := rfl
@[simp] theorem State.setInputs_inputs (rest : List Input) : (s.setInputs rest).inputs = rest := rfl
@[simp] theorem State.setInputs_draws (rest : List Input) : (s.setInputs rest).draws = s.draws := rfl
@[simp] theorem State.setInputs_reg (rest : List Input) (y : Reg) : (s.setInputs rest).reg y = s.reg y := rfl
@[simp] theorem State.setInputs_byteAt (rest : List Input) (k : Nat) : (s.setInputs rest).byteAt k = s.byteAt k := rfl
@[simp] theorem State.setInputs_pressed (rest : List Input) (j : Key) : (s.setInputs rest).pressed j = s.pressed j := rfl
@[simp] theorem State.setInputs_pixel (rest : List Input) (y : Fin 32) (c : Fin 64) : (s.setInputs rest).pixel y c = s.pixel y c := rfl
@[simp] theorem State.setInputs_instrAddr (rest : List Input) : (s.setInputs rest).instrAddr = s.instrAddr := rfl

/-! ### loadRange -/

@[simp] theorem loadRange_v (x : Reg) (bs : List Byte) : (loadRange s x bs).v = loadedRegs s.v x bs := by simp only [loadRange]
@[simp] theorem loadRange_i (x : Reg) (bs : List Byte) : (loadRange s x bs).i = s.i := by simp only [loadRange]
@[simp] theorem loadRange_pc (x : Reg) (bs : List Byte) : (loadRange s x bs).pc = s.pc := by simp only [loadRange]
@[simp] theorem loadRange_stack (x : Reg) (bs : List Byte) : (loadRange s x bs).stack = s.stack := by simp only [loadRange]
@[simp] theorem loadRange_sp (x : Reg) (bs : List Byte) : (loadRange s x bs).sp = s.sp := by simp only [loadRange]
@[simp] theorem loadRange_dt (x : Reg) (bs : List Byte) : (loadRange s x bs).dt = s.dt := by simp only [loadRange]
@[simp] theorem loadRange_st (x : Reg) (bs : List Byte) : (loadRange s x bs).st = s.st := by simp only [loadRange]
@[simp] theorem loadRange_mem (x : Reg) (bs : List Byte) : (loadRange s x bs).mem = s.mem := by simp only [loadRange]
@[simp] theorem loadRange_run (x : Reg) (bs : List Byte) : (loadRange s x bs).run = s.run := by simp only [loadRange]
@[simp] theorem loadRange_ir (x : Reg) (bs : List Byte) : (loadRange s x bs).ir = s.ir := by simp only [loadRange]
@[simp] theorem loadRange_fault (x : Reg) (bs : List Byte) : (loadRange s x bs).fault = s.fault := by simp only [loadRange]
@[simp] theorem loadRange_fb (x : Reg) (bs : List Byte) : (loadRange s x bs).fb = s.fb := by simp only [loadRange]
@[simp] theorem loadRange_fbDirty (x : Reg) (bs : List Byte) : (loadRange s x bs).fbDirty = s.fbDirty := by simp only [loadRange]
@[simp] theorem loadRange_keys (x : Reg) (bs : List Byte) : (loadRange s x bs).keys = s.keys := by simp only [loadRange]
@[simp] theorem loadRange_timerEn (x : Reg) (bs : List Byte) : (loadRange s x bs).timerEn = s.timerEn := by simp only [loadRange]
@[simp] theorem loadRange_cfg (x : Reg) (bs : List Byte) : (loadRange s x bs).cfg = s.cfg := by simp only [loadRange]
@[simp] theorem loadRange_inputs (x : Reg) (bs : List Byte) : (loadRange s x bs).inputs = s.inputs := by simp only [loadRange]
@[simp] theorem loadRange_draws (x : Reg) (bs : List Byte) : (loadRange s x bs).draws = s.draws := by simp only [loadRange]
@[simp] theorem loadRange_byteAt (x : Reg) (bs : List Byte) (k : Nat) : (loadRange s x bs).byteAt k = s.byteAt k := by simp only [loadRange, State.byteAt]
@[simp] theorem loadRange_pressed (x : Reg) (bs : List Byte) (j : Key) : (loadRange s x bs).pressed j = s.pressed j := by simp only [loadRange, State.pressed]
@[simp] theorem loadRange_pixel (x : Reg) (bs : List Byte) (y : Fin 32) (c : Fin 64) : (loadRange s x bs).pixel y c = s.pixel y c := by simp only [loadRange, State.pixel]
@[simp] theorem loadRange_instrAddr (x : Reg) (bs : List Byte) : (loadRange s x bs).instrAddr = s.instrAddr := by simp only [loadRange, State.instrAddr]

/-! ### Registers, keys and pixels after an update of them -/

/-- Writing one register and reading any. -/
@[simp] theorem State.reg_setReg (x y : Reg) (b : Byte) : (s.setReg x b).reg y = if y = x then b else s.reg y := by
  simp only [State.reg, State.setReg, Fin.getElem_fin, Vector.getElem_set]
  split <;> split <;> simp_all [Fin.ext_iff]

/-- Pressing or releasing one key and querying any. -/
@[simp] theorem State.pressed_setKey (k j : Key) (down : Bool) :
    (s.setKey k down).pressed j = if j = k then down else s.pressed j := by
  simp only [State.pressed, State.setKey, Fin.getElem_fin, Vector.getElem_set]
  split <;> split <;> simp_all [Fin.ext_iff]

/-- The registers after `FX65`: the range from the bytes, the rest unchanged. -/
@[simp] theorem State.reg_loadRange (x y : Reg) (bs : List Byte) :
    (loadRange s x bs).reg y = if y.val ≤ x.val then bs.getD y.val 0 else s.reg y := by
  simp [State.reg, loadRange, loadedRegs]

@[simp] theorem State.reg_bootBlank (y : Reg) : (bootBlank s).reg y = 0 := by
  simp [State.reg, bootBlank]

@[simp] theorem State.pixel_setScreen (g : FrameBuffer) (y : Fin 32) (c : Fin 64) :
    (s.setScreen g).pixel y c = g[y][c] := rfl

@[simp] theorem blankScreen_pixel (y : Fin 32) (c : Fin 64) : blankScreen[y][c] = false := by
  simp [blankScreen]

/-- A conditional skip changes `PC` alone. -/
theorem State.skipIf_eq (cond : Bool) : s.skipIf cond = s.setPc (if cond then s.pc + 2 else s.pc) := by
  cases cond <;> rfl

end Sys2Proof.Machine
end

