-- ==== Sys2Proof/Laws/Flags.lean ====
section
/-! SUPPORT. The flags and the shifted values as numbers (`spec/41_load_alu.md` R143), and what the two-write operations
leave in every register (R140). -/

namespace Sys2Proof.Machine

theorem flagByte_toNat (b : Bool) : (flagByte b).toNat = if b then 1 else 0 := by cases b <;> rfl

theorem flagByte_eq_one (b : Bool) : flagByte b = 1 ↔ b = true := by cases b <;> decide

theorem carry_toNat (a b : Byte) : (flagByte (carry a b)).toNat = if 256 ≤ a.toNat + b.toNat then 1 else 0 := by
  rw [flagByte_toNat, carry]; simp only [decide_eq_true_eq]

theorem noBorrow_toNat (a b : Byte) : (flagByte (noBorrow a b)).toNat = if b.toNat ≤ a.toNat then 1 else 0 := by
  rw [flagByte_toNat, noBorrow]; simp only [decide_eq_true_eq]

/-- A subtraction modulo 256 (R143). -/
theorem sub_toNat (a b : Byte) : (a - b).toNat = (a.toNat + 256 - b.toNat) % 256 := by
  rw [BitVec.toNat_sub]; have := b.isLt; congr 1; omega

theorem shiftRight_toNat (a : Byte) : (a >>> 1).toNat = a.toNat / 2 := by
  rw [BitVec.toNat_ushiftRight, Nat.shiftRight_eq_div_pow]

theorem shiftLeft_toNat (a : Byte) : (a <<< 1).toNat = a.toNat * 2 % 256 := by
  rw [BitVec.toNat_shiftLeft, Nat.shiftLeft_eq]

theorem shiftedOutRight_toNat (a : Byte) : (flagByte (shiftedOutRight a)).toNat = a.toNat % 2 := by
  rw [flagByte_toNat, shiftedOutRight, BitVec.getLsbD, Nat.testBit_zero]
  simp only [decide_eq_true_eq]; split <;> omega

theorem shiftedOutLeft_toNat (a : Byte) : (flagByte (shiftedOutLeft a)).toNat = a.toNat / 128 := by
  rw [flagByte_toNat, shiftedOutLeft, BitVec.getLsbD, Nat.testBit_eq_decide_div_mod_eq]
  have := a.isLt
  simp only [decide_eq_true_eq]; split <;> omega

variable (s : State) (x z : Reg) (r f : Byte)

/-- Result first, flag second: the flag stays in VF (R140). -/
theorem writeResultThenFlag_reg :
    (writeResultThenFlag s x r f).reg z = if z = 15 then f else if z = x then r else s.reg z := by
  simp [writeResultThenFlag]

/-- Flag first, result second: with `X` = 15 the value of `VF_ORDER` decides (R140). -/
theorem writeFlagThenResult_reg :
    (writeFlagThenResult s x r f).reg z =
      if z = x ∧ (x = 15 → s.cfg.vfOrder = .tableOrder) then r else if z = 15 then f else s.reg z := by
  unfold writeFlagThenResult
  cases h : s.cfg.vfOrder
  · simp
  · simp; grind

/-- The logic instructions' writes (R145 to R147). -/
theorem writeLogicResult_reg :
    (writeLogicResult s x r).reg z =
      if z = 15 ∧ s.cfg.logicVf = .zero then 0 else if z = x then r else s.reg z := by
  unfold writeLogicResult
  cases h : s.cfg.logicVf <;> simp [writeResultThenFlag_reg]

/-- Each of the three writes the register file alone. -/
theorem writeResultThenFlag_frame : writeResultThenFlag s x r f = { s with v := (writeResultThenFlag s x r f).v } := rfl

theorem writeFlagThenResult_frame : writeFlagThenResult s x r f = { s with v := (writeFlagThenResult s x r f).v } := by
  unfold writeFlagThenResult
  cases s.cfg.vfOrder <;> rfl

theorem writeLogicResult_frame : writeLogicResult s x r = { s with v := (writeLogicResult s x r).v } := by
  unfold writeLogicResult
  cases s.cfg.logicVf <;> rfl

end Sys2Proof.Machine
end

