-- ==== Sys2Proof/Laws/Memory.lean ====
section
/-! SUPPORT. The laws of memory: reading after a write (`spec/20_memory.md` R77), what a write leaves alone, and that
every memory operation keeps the canonical form. -/

namespace Sys2Proof.Machine

/-! ### One byte -/

theorem Memory.find_insert (m : List Host.Cell) (a k : Nat) (b : Byte) :
    Memory.find (Memory.insert m a b) k = if k = a then some b else Memory.find m k := by
  induction m with
  | nil => simp [Memory.insert, Memory.find, eq_comm]
  | cons c rest ih =>
    simp only [Memory.insert]
    split
    · simp [Memory.find, eq_comm]
    · split <;> grind [Memory.find]

theorem Memory.find_erase (m : List Host.Cell) (a k : Nat) :
    Memory.find (Memory.erase m a) k = if k = a then none else Memory.find m k := by
  induction m with
  | nil => simp [Memory.erase, Memory.find]
  | cons c rest ih =>
    simp only [Memory.erase, List.filter_cons] at ih ⊢
    by_cases h : c.1 = a <;> grind [Memory.find]

/-- Reading any address after writing one. -/
theorem Memory.read_write (font : Config.Font) (m : List Host.Cell) (a k : Nat) (b : Byte) :
    Memory.read font (Memory.write font m a b) k = if k = a then b else Memory.read font m k := by
  simp only [Memory.read, Memory.write]
  split
  · rw [Memory.find_erase]; split <;> simp_all
  · rw [Memory.find_insert]; split <;> simp_all

/-- Reading any address after writing a sequence of bytes. -/
theorem Memory.read_writeAll (font : Config.Font) (bytes : List Byte) :
    ∀ (m : List Host.Cell) (a k : Nat), Memory.read font (Memory.writeAll font m a bytes) k =
      if a ≤ k ∧ k < a + bytes.length then bytes.getD (k - a) 0 else Memory.read font m k := by
  induction bytes with
  | nil => intro m a k; simp only [Memory.writeAll, List.length_nil]; split; · omega
           rfl
  | cons b bs ih =>
    intro m a k
    rw [Memory.writeAll, ih, Memory.read_write, List.length_cons]
    by_cases hk : k = a
    · subst hk; simp
    · by_cases hin : a + 1 ≤ k ∧ k < a + 1 + bs.length
      · have h2 : a ≤ k ∧ k < a + (bs.length + 1) := by omega
        have h3 : k - a = (k - (a + 1)) + 1 := by omega
        rw [if_pos hin, if_pos h2, h3, List.getD_cons_succ]
      · have h2 : ¬(a ≤ k ∧ k < a + (bs.length + 1)) := by omega
        rw [if_neg hin, if_neg h2, if_neg hk]

/-! ### The canonical form -/

theorem Memory.wfFrom_mono (font : Config.Font) {lo lo' : Nat} {m : List Host.Cell} (hle : lo' ≤ lo)
    (h : Memory.wfFrom font lo m = true) : Memory.wfFrom font lo' m = true := by
  cases m with
  | nil => rfl
  | cons c rest => simp only [Memory.wfFrom, Bool.and_eq_true, decide_eq_true_eq] at h ⊢; grind

theorem Memory.insert_wfFrom (font : Config.Font) (m : List Host.Cell) :
    ∀ (lo a : Nat) (b : Byte), lo ≤ a → a < Config.memSize → b ≠ unlistedByte font a →
      Memory.wfFrom font lo m = true → Memory.wfFrom font lo (Memory.insert m a b) = true := by
  induction m with
  | nil => intro lo a b hlo ha hb _; simp_all [Memory.insert, Memory.wfFrom]
  | cons c rest ih =>
    intro lo a b hlo ha hb h
    simp only [Memory.wfFrom, Bool.and_eq_true, decide_eq_true_eq, bne_iff_ne] at h
    obtain ⟨⟨⟨h1, h2⟩, h3⟩, h4⟩ := h
    simp only [Memory.insert]
    split
    · simp only [Memory.wfFrom, Bool.and_eq_true, decide_eq_true_eq, bne_iff_ne]; grind
    · split
      · simp only [Memory.wfFrom, Bool.and_eq_true, decide_eq_true_eq, bne_iff_ne]; grind
      · have h5 : c.1 + 1 ≤ a := by omega
        simp only [Memory.wfFrom, Bool.and_eq_true, decide_eq_true_eq, bne_iff_ne]
        exact ⟨⟨⟨h1, h2⟩, h3⟩, ih _ _ _ h5 ha hb h4⟩

theorem Memory.erase_wfFrom (font : Config.Font) (m : List Host.Cell) :
    ∀ (lo a : Nat), Memory.wfFrom font lo m = true → Memory.wfFrom font lo (Memory.erase m a) = true := by
  induction m with
  | nil => intro lo a _; rfl
  | cons c rest ih =>
    intro lo a h
    simp only [Memory.wfFrom, Bool.and_eq_true, decide_eq_true_eq, bne_iff_ne] at h
    obtain ⟨⟨⟨h1, h2⟩, h3⟩, h4⟩ := h
    have h5 := ih (c.1 + 1) a h4
    simp only [Memory.erase, List.filter_cons] at h5 ⊢
    split
    · simp only [Memory.wfFrom, Bool.and_eq_true, decide_eq_true_eq, bne_iff_ne]
      exact ⟨⟨⟨h1, h2⟩, h3⟩, h5⟩
    · exact Memory.wfFrom_mono font (by omega) h5

/-- Writing one byte inside the memory keeps the canonical form. -/
theorem Memory.write_wf (font : Config.Font) {m : List Host.Cell} {a : Nat} (b : Byte) (ha : a < Config.memSize)
    (h : Memory.wf font m = true) : Memory.wf font (Memory.write font m a b) = true := by
  simp only [Memory.write, Memory.wf] at h ⊢
  split
  · exact Memory.erase_wfFrom font m 0 a h
  · exact Memory.insert_wfFrom font m 0 a b (Nat.zero_le a) ha ‹_› h

/-- Writing a sequence of bytes inside the memory keeps the canonical form. -/
theorem Memory.writeAll_wf (font : Config.Font) (bytes : List Byte) :
    ∀ (m : List Host.Cell) (a : Nat), a + bytes.length ≤ Config.memSize → Memory.wf font m = true →
      Memory.wf font (Memory.writeAll font m a bytes) = true := by
  induction bytes with
  | nil => intro m a _ h; exact h
  | cons b bs ih =>
    intro m a ha h
    simp only [List.length_cons] at ha
    exact ih _ _ (by omega) (Memory.write_wf font b (by omega) h)

/-- The memory after reset lists nothing, which is canonical. -/
theorem State.reset_memWf : Memory.wf State.reset.cfg.font State.reset.mem = true := rfl

/-! ### The access primitives -/

/-- Everything `MemRead` can do (`spec/20_memory.md` R62). -/
theorem memRead_cases (s : State) (addr n : Nat) :
    (4096 < addr + n ∧ memRead s addr n = .error (.addressingError addr n)) ∨
    (addr + n ≤ 4096 ∧ memRead s addr n = .ok ((List.range n).map fun j => s.byteAt (addr + j))) := by
  by_cases h : 4096 < addr + n
  · exact .inl ⟨h, if_pos h⟩
  · exact .inr ⟨by omega, if_neg h⟩

/-- Everything `MemWrite` can do (R63). -/
theorem memWrite_cases (s : State) (addr : Nat) (bytes : List Byte) :
    (4096 < addr + bytes.length ∧ memWrite s addr bytes = .error (.addressingError addr bytes.length)) ∨
    (addr + bytes.length ≤ 4096 ∧ memWrite s addr bytes = .ok (s.store addr bytes)) := by
  by_cases h : 4096 < addr + bytes.length
  · exact .inl ⟨h, if_pos h⟩
  · exact .inr ⟨by omega, if_neg h⟩

/-- `MEM` after a store: the stored bytes inside, everything else as before. -/
@[simp] theorem State.byteAt_store (s : State) (a k : Nat) (bytes : List Byte) :
    (s.store a bytes).byteAt k = if a ≤ k ∧ k < a + bytes.length then bytes.getD (k - a) 0 else s.byteAt k :=
  Memory.read_writeAll s.cfg.font bytes s.mem a k

/-- A successful `MemWrite` keeps the canonical form. -/
theorem memWrite_wf {s t : State} {addr : Nat} {bytes : List Byte} (h : memWrite s addr bytes = .ok t)
    (hwf : Memory.wf s.cfg.font s.mem = true) : Memory.wf t.cfg.font t.mem = true := by
  obtain ⟨_, he⟩ | ⟨hle, he⟩ := memWrite_cases s addr bytes
  · rw [he] at h; cases h
  · rw [he] at h; cases h
    exact Memory.writeAll_wf s.cfg.font bytes s.mem addr hle hwf

end Sys2Proof.Machine
end

