-- ==== Sys2Proof/Laws/Operands.lean ====
section
/-! SUPPORT. The operand forms as numbers, and what the range and sprite operations hold at each index. -/

namespace Sys2Proof.Machine

@[simp] theorem zextAddr_toNat (nnn : Addr) : (zextAddr nnn).toNat = nnn.toNat := by
  simp [zextAddr]; omega

@[simp] theorem zextByte_toNat (b : Byte) : (zextByte b).toNat = b.toNat := by
  simp [zextByte]; omega

/-- `V[0] + NNN` does not wrap in 16 bits (`spec/40_control_flow.md` R123). -/
theorem jumpV0Target_toNat (s : State) (nnn : Addr) : (jumpV0Target s nnn).toNat = (s.reg 0).toNat + nnn.toNat := by
  rw [jumpV0Target, BitVec.toNat_add, zextByte_toNat, zextAddr_toNat]; omega

@[simp] theorem regRange_length (s : State) (x : Reg) : (regRange s x).length = x.val + 1 := by
  simp [regRange]

/-- Byte `j` of the stored range is `V[j]` (`spec/42_index_memory.md` R164). -/
theorem regRange_getD (s : State) (x j : Reg) (h : j ≤ x) : (regRange s x).getD j.val 0 = s.reg j := by
  have hj : j.val < x.val + 1 := Nat.lt_succ_of_le h
  simp [regRange, State.reg, List.getD_eq_getElem?_getD, hj]

/-- `I` after a transfer that stayed inside the memory (R164, R165). -/
theorem indexAfterTransfer_toNat (s : State) (x : Reg) (h : s.i.toNat + x.val + 1 ≤ 4096) :
    (indexAfterTransfer s x).toNat = if s.cfg.memInc = .inc then s.i.toNat + x.val + 1 else s.i.toNat := by
  unfold indexAfterTransfer
  cases s.cfg.memInc
  · simp only [if_true]; rw [BitVec.toNat_add, BitVec.toNat_ofNat]; omega
  · rfl

@[simp] theorem decimalDigits_length (b : Byte) : (decimalDigits b).length = 3 := rfl

/-- The glyph's address does not wrap (`spec/45_optional_ext.md` R194). -/
theorem glyphAddr_toNat (b : Byte) : (glyphAddr b).toNat = 0x50 + 5 * (b.toNat % 16) := by
  have h : (b &&& 0x0F).toNat = b.toNat % 16 := by
    rw [BitVec.toNat_and]; exact Nat.and_two_pow_sub_one_eq_mod b.toNat 4
  rw [glyphAddr, BitVec.toNat_ofNat, h, Config.fontBase]; omega

/-- One pixel of a drawn screen (`spec/43_display.md` R172). -/
theorem drawSprite_pixel (fb : FrameBuffer) (rows : List Byte) (x0 y0 : Nat) (y : Fin 32) (x : Fin 64) :
    (drawSprite fb rows x0 y0)[y][x] = (fb[y][x] ^^ spriteBit rows x0 y0 y x) := by
  simp [drawSprite]

/-- The collision flag, pixel by pixel (R172). -/
theorem spriteHits_iff (fb : FrameBuffer) (rows : List Byte) (x0 y0 : Nat) :
    spriteHits fb rows x0 y0 = true ↔ ∃ y x, spriteBit rows x0 y0 y x = true ∧ fb[y][x] = true := by
  simp [spriteHits, List.any_eq_true]

/-- Two screens with the same pixels are the same. -/
theorem screen_ext {f g : FrameBuffer} (h : ∀ (y : Fin 32) (x : Fin 64), f[y][x] = g[y][x]) : f = g := by
  apply Vector.ext
  intro y hy
  apply Vector.ext
  intro x hx
  exact h ⟨y, hy⟩ ⟨x, hx⟩

/-- Everything the key query of SKP and SKNP can answer (`spec/44_keypad_timers.md` R180). -/
theorem keyLevel_cases (s : State) (v : Byte) :
    (∃ h : v.toNat < 16, keyLevel s v = .ok (s.pressed ⟨v.toNat, h⟩)) ∨
    (16 ≤ v.toNat ∧ s.cfg.keyOor = .fault ∧ keyLevel s v = .error (.keyIndexError v)) ∨
    (16 ≤ v.toNat ∧ s.cfg.keyOor = .mask4 ∧
      keyLevel s v = .ok (s.pressed ⟨v.toNat % 16, Nat.mod_lt _ (by decide)⟩)) ∨
    (16 ≤ v.toNat ∧ s.cfg.keyOor = .notPressed ∧ keyLevel s v = .ok false) := by
  unfold keyLevel
  by_cases h : v.toNat < 16
  · exact .inl ⟨h, by rw [dif_pos h]⟩
  · rw [dif_neg h]
    have h' : 16 ≤ v.toNat := by omega
    cases hk : s.cfg.keyOor
    · exact .inr (.inl ⟨h', rfl, rfl⟩)
    · exact .inr (.inr (.inl ⟨h', rfl, rfl⟩))
    · exact .inr (.inr (.inr ⟨h', rfl, rfl⟩))

end Sys2Proof.Machine
end

