-- ==== Sys2Proof/Laws/Ops.lean ====
section
/-! SUPPORT. Everything each shared operation can do: the stack, reset, the key scan, the fetch and the executor step. -/

namespace Sys2Proof.Machine

/-- Everything `push` can do (`spec/10_state.md` R29). -/
theorem push_cases (s : State) (w : Word) :
    (s.sp.val = 16 ∧ push s w = .error .stackOverflow) ∨
    (∃ h : s.sp.val < 16, push s w =
      .ok { s with stack := s.stack.set s.sp.val w h, sp := ⟨s.sp.val + 1, by omega⟩ }) := by
  unfold push
  by_cases h : s.sp.val < 16
  · exact .inr ⟨h, by rw [dif_pos h]⟩
  · exact .inl ⟨by omega, by rw [dif_neg h]⟩

/-- Everything `pop` can do (R30). -/
theorem pop_cases (s : State) :
    (s.sp.val = 0 ∧ pop s = .error .stackUnderflow) ∨
    (s.sp.val ≠ 0 ∧ pop s =
      .ok (s.stack[s.sp.val - 1]'(by omega), { s with sp := ⟨s.sp.val - 1, by omega⟩ })) := by
  unfold pop
  by_cases h : s.sp.val = 0
  · exact .inl ⟨h, by rw [dif_pos h]⟩
  · exact .inr ⟨h, by rw [dif_neg h]⟩

/-- Everything a reset can do (`spec/70_reset_and_hazards.md` R250, R252). -/
theorem boot_cases (rom : List Byte) (s : State) :
    (3584 < rom.length ∧ boot rom s = raise (.addressingError 0x200 rom.length) 0x0200 (bootBlank s)) ∨
    (rom.length ≤ 3584 ∧ boot rom s = (bootBlank s).store 0x200 rom) := by
  unfold boot
  obtain ⟨h, e⟩ | ⟨h, e⟩ := memWrite_cases (bootBlank s) Config.romBase rom <;> rw [e]
  · exact .inl ⟨by simp at h; omega, rfl⟩
  · exact .inr ⟨by simp at h; omega, rfl⟩

/-- The memory of a reset before the ROM: the font and zeros (R250, R251). -/
theorem bootBlank_byteAt (s : State) (a : Nat) : (bootBlank s).byteAt a = unlistedByte s.cfg.font a := rfl

/-- The reset content of an address (`spec/10_state.md` R36, R43). -/
theorem unlistedByte_eq (font : Config.Font) (a : Nat) :
    unlistedByte font a = if 0x50 ≤ a ∧ a < 0xA0 then font.toList.getD (a - 0x50) 0 else 0 := by
  unfold unlistedByte
  by_cases h : 0x50 ≤ a ∧ a < 0xA0
  · have h80 : a - 0x50 < 80 := by omega
    rw [dif_pos (by simpa using h), if_pos h]
    simp [List.getD_eq_getElem?_getD, h80]
  · rw [dif_neg (by simpa using h), if_neg h]

/-- The key scan answers the lowest pressed key (`spec/44_keypad_timers.md` R186 (b)). -/
theorem firstPressed_eq_some (s : State) (k : Key) :
    s.firstPressed = some k ↔ s.pressed k = true ∧ ∀ j, j < k → s.pressed j = false := by
  unfold State.firstPressed
  rw [List.find?_eq_some_iff_getElem]
  simp only [List.getElem_finRange, List.length_finRange]
  constructor
  · rintro ⟨h, n, hn, hk, hlt⟩
    refine ⟨h, fun j hj => ?_⟩
    have hkn : k.val = n := by rw [← hk]; rfl
    have hjn : j.val < n := hkn ▸ hj
    simpa using hlt j.val hjn
  · rintro ⟨h, hlt⟩
    refine ⟨h, k.val, k.isLt, rfl, fun n hn => ?_⟩
    simpa using hlt ⟨n, by omega⟩ hn

/-- The key scan answers nothing exactly when no key is down. -/
theorem firstPressed_eq_none (s : State) : s.firstPressed = none ↔ ∀ k, s.pressed k = false := by
  simp [State.firstPressed, List.find?_eq_none]

/-- Everything the fetch can do (`spec/20_memory.md` R62, R65; `spec/60_exceptions.md` R203). -/
theorem fetchWord_cases (s : State) :
    (4095 ≤ s.pc.toNat ∧ fetchWord s = .error (.addressingError s.pc.toNat 2)) ∨
    (s.pc.toNat + 2 ≤ 4096 ∧
      fetchWord s = .ok (wordOfBytes (s.byteAt s.pc.toNat) (s.byteAt (s.pc.toNat + 1)))) := by
  unfold fetchWord
  obtain ⟨h, e⟩ | ⟨h, e⟩ := memRead_cases s s.pc.toNat 2 <;> rw [e]
  · exact .inl ⟨by omega, rfl⟩
  · exact .inr ⟨h, rfl⟩

/-- The decoder rejects with the word itself, and with nothing else (`spec/30_encoding.md` R98). -/
theorem decode_error {ext : Config.ExtOps} {w : Word} {r : Reject} (h : decode ext w = .error r) :
    r = .unknownInstruction w := by
  unfold decode at h
  split at h
  · cases h
  · cases h; rfl

/-- Everything the executor step in `Running` can do (`spec/60_exceptions.md` R209, R210). -/
theorem runningStep_cases (s : State) :
    (∃ e, fetchWord s = .error e ∧ runningStep s = .next (raise e s.pc s)) ∨
    (∃ w, fetchWord s = .ok w ∧ decode s.cfg.ext w = .error (.unknownInstruction w) ∧
      runningStep s = .next (raise (.unknownInstruction w) s.pc (s.fetched w))) ∨
    (∃ w i, fetchWord s = .ok w ∧ decode s.cfg.ext w = .ok i ∧ runningStep s = exec i (s.fetched w)) := by
  cases hf : fetchWord s with
  | error e => exact .inl ⟨e, rfl, by simp only [runningStep, hf]⟩
  | ok w =>
    cases hd : decode s.cfg.ext w with
    | error r =>
      rw [decode_error hd] at hd
      exact .inr (.inl ⟨w, rfl, hd, by simp only [runningStep, hf, hd]⟩)
    | ok i => exact .inr (.inr ⟨w, i, rfl, hd, by simp only [runningStep, hf, hd]⟩)

/-- The events of a state with one listed (`spec/00_scope.md` R9). -/
theorem step_of_inputs {s : State} {e : Input} {rest : List Input} (h : s.inputs = e :: rest) :
    step s = handleInput e (s.setInputs rest) := by
  unfold step nextStep; rw [h]

/-- A step with nothing listed is an executor step. -/
theorem step_of_no_inputs {s : State} (h : s.inputs = []) : step s = executorStep s := by
  unfold step nextStep; rw [h]

end Sys2Proof.Machine
end

