-- ==== Sys2Proof/Laws/Exec.lean ====
section
/-! SUPPORT. Everything each instruction that can raise a fault can do; the other instructions are one update each. -/

namespace Sys2Proof.Machine

variable (s : State)

/-- RET (`spec/40_control_flow.md` R120). -/
theorem execRet_cases :
    (s.sp.val = 0 ∧ execRet s = .next (raiseInstr .stackUnderflow s)) ∨
    (s.sp.val ≠ 0 ∧ execRet s =
      .next { s with sp := ⟨s.sp.val - 1, by omega⟩, pc := s.stack[s.sp.val - 1]'(by omega) }) := by
  unfold execRet
  obtain ⟨h, e⟩ | ⟨h, e⟩ := pop_cases s <;> rw [e]
  · exact .inl ⟨h, rfl⟩
  · exact .inr ⟨h, rfl⟩

/-- CALL (R122). -/
theorem execCall_cases (nnn : Addr) :
    (s.sp.val = 16 ∧ execCall nnn s = .next (raiseInstr .stackOverflow s)) ∨
    (∃ h : s.sp.val < 16, execCall nnn s =
      .next { s with stack := s.stack.set s.sp.val s.pc h, sp := ⟨s.sp.val + 1, by omega⟩, pc := zextAddr nnn }) := by
  unfold execCall
  obtain ⟨h, e⟩ | ⟨h, e⟩ := push_cases s s.pc <;> rw [e]
  · exact .inl ⟨h, rfl⟩
  · exact .inr ⟨h, rfl⟩

/-- LD B, Vx (`spec/42_index_memory.md` R163). -/
theorem execLdBVx_cases (x : Reg) :
    (4096 < s.i.toNat + 3 ∧ execLdBVx x s = .next (raiseInstr (.addressingError s.i.toNat 3) s)) ∨
    (s.i.toNat + 3 ≤ 4096 ∧ execLdBVx x s = .next (s.store s.i.toNat (decimalDigits (s.reg x)))) := by
  unfold execLdBVx
  obtain ⟨h, e⟩ | ⟨h, e⟩ := memWrite_cases s s.i.toNat (decimalDigits (s.reg x)) <;> rw [e]
  · exact .inl ⟨h, rfl⟩
  · exact .inr ⟨h, rfl⟩

/-- LD [I], Vx (R164). -/
theorem execLdMemVx_cases (x : Reg) :
    (4096 < s.i.toNat + (x.val + 1) ∧
      execLdMemVx x s = .next (raiseInstr (.addressingError s.i.toNat (x.val + 1)) s)) ∨
    (s.i.toNat + (x.val + 1) ≤ 4096 ∧
      execLdMemVx x s = .next ((s.store s.i.toNat (regRange s x)).setI (indexAfterTransfer s x))) := by
  unfold execLdMemVx
  obtain ⟨h, e⟩ | ⟨h, e⟩ := memWrite_cases s s.i.toNat (regRange s x) <;> rw [e] <;> rw [regRange_length] at h
  · rw [regRange_length]; exact .inl ⟨h, rfl⟩
  · exact .inr ⟨h, rfl⟩

/-- LD Vx, [I] (R165). -/
theorem execLdVxMem_cases (x : Reg) :
    (4096 < s.i.toNat + (x.val + 1) ∧
      execLdVxMem x s = .next (raiseInstr (.addressingError s.i.toNat (x.val + 1)) s)) ∨
    (s.i.toNat + (x.val + 1) ≤ 4096 ∧
      execLdVxMem x s =
        .next ((loadRange s x ((List.range (x.val + 1)).map fun j => s.byteAt (s.i.toNat + j))).setI
          (indexAfterTransfer s x))) := by
  unfold execLdVxMem
  obtain ⟨h, e⟩ | ⟨h, e⟩ := memRead_cases s s.i.toNat (x.val + 1) <;> rw [e]
  · exact .inl ⟨h, rfl⟩
  · exact .inr ⟨h, rfl⟩

/-- The row bytes DXYN reads (`spec/43_display.md` R172). -/
abbrev spriteRows (n : Nibble) : List Byte := (List.range n.toNat).map fun j => s.byteAt (s.i.toNat + j)

/-- DRW (R172). -/
theorem execDrw_cases (x y : Reg) (n : Nibble) :
    (4096 < s.i.toNat + n.toNat ∧
      execDrw x y n s = .next (raiseInstr (.addressingError s.i.toNat n.toNat) s)) ∨
    (s.i.toNat + n.toNat ≤ 4096 ∧
      execDrw x y n s =
        .next ((s.setScreen (drawSprite s.fb (spriteRows s n) (spriteColumn (s.reg x)) (spriteRow (s.reg y)))).setReg vf
          (flagByte (spriteHits s.fb (spriteRows s n) (spriteColumn (s.reg x)) (spriteRow (s.reg y)))))) := by
  unfold execDrw
  obtain ⟨h, e⟩ | ⟨h, e⟩ := memRead_cases s s.i.toNat n.toNat <;> rw [e]
  · exact .inl ⟨h, rfl⟩
  · exact .inr ⟨h, rfl⟩

/-- SKP (`spec/44_keypad_timers.md` R181). -/
theorem execSkp_cases (x : Reg) :
    (∃ down, keyLevel s (s.reg x) = .ok down ∧ execSkp x s = .next (s.setPc (if down then s.pc + 2 else s.pc))) ∨
    (16 ≤ (s.reg x).toNat ∧ s.cfg.keyOor = .fault ∧ execSkp x s = .next (raiseInstr (.keyIndexError (s.reg x)) s)) := by
  unfold execSkp
  obtain ⟨_, e⟩ | ⟨h, hk, e⟩ | ⟨_, _, e⟩ | ⟨_, _, e⟩ := keyLevel_cases s (s.reg x) <;> rw [e]
  · exact .inl ⟨_, rfl, by rw [← State.skipIf_eq]⟩
  · exact .inr ⟨h, hk, rfl⟩
  · exact .inl ⟨_, rfl, by rw [← State.skipIf_eq]⟩
  · exact .inl ⟨_, rfl, by rw [← State.skipIf_eq]⟩

/-- SKNP (R182). -/
theorem execSknp_cases (x : Reg) :
    (∃ down, keyLevel s (s.reg x) = .ok down ∧
      execSknp x s = .next (s.setPc (if down = false then s.pc + 2 else s.pc))) ∨
    (16 ≤ (s.reg x).toNat ∧ s.cfg.keyOor = .fault ∧ execSknp x s = .next (raiseInstr (.keyIndexError (s.reg x)) s)) := by
  have hskip : ∀ b : Bool, s.skipIf (!b) = s.setPc (if b = false then s.pc + 2 else s.pc) := fun b => by
    rw [State.skipIf_eq]; cases b <;> rfl
  unfold execSknp
  obtain ⟨_, e⟩ | ⟨h, hk, e⟩ | ⟨_, _, e⟩ | ⟨_, _, e⟩ := keyLevel_cases s (s.reg x) <;> rw [e]
  · exact .inl ⟨_, rfl, congrArg Host.Outcome.next (hskip _)⟩
  · exact .inr ⟨h, hk, rfl⟩
  · exact .inl ⟨_, rfl, congrArg Host.Outcome.next (hskip _)⟩
  · exact .inl ⟨_, rfl, congrArg Host.Outcome.next (hskip _)⟩

end Sys2Proof.Machine
end

