-- ==== Sys2Proof/Laws/PerInstr.lean ====
section
/-! SUPPORT. One law per instruction: its word lies in its row of the opcode map (`spec/30_encoding.md` R96). -/

namespace Sys2Proof.Laws.OpcodeRow

/-- The word of `i` selects the row of R96 that `i` stands for: `w & mask = match`. -/
def Statement (i : Instr) : Prop := encode i &&& i.row.mask = i.row.pattern

theorem cls : Statement .cls := by
  rfl

theorem ret : Statement .ret := by
  rfl

theorem jp (nnn : Addr) : Statement (.jp nnn) := by
  rw [Statement, encode, Instr.row, maskOp_eq, opField_formNNN]; decide

theorem call (nnn : Addr) : Statement (.call nnn) := by
  rw [Statement, encode, Instr.row, maskOp_eq, opField_formNNN]; decide

theorem seImm (x : Reg) (nn : Byte) : Statement (.seImm x nn) := by
  rw [Statement, encode, Instr.row, maskOp_eq, opField_formXNN]; decide

theorem sneImm (x : Reg) (nn : Byte) : Statement (.sneImm x nn) := by
  rw [Statement, encode, Instr.row, maskOp_eq, opField_formXNN]; decide

theorem seReg (x y : Reg) : Statement (.seReg x y) := by
  rw [Statement, encode, Instr.row, maskOpN_eq, opField_formXYN, nField_formXYN]; decide

theorem sneReg (x y : Reg) : Statement (.sneReg x y) := by
  rw [Statement, encode, Instr.row, maskOpN_eq, opField_formXYN, nField_formXYN]; decide

theorem ldImm (x : Reg) (nn : Byte) : Statement (.ldImm x nn) := by
  rw [Statement, encode, Instr.row, maskOp_eq, opField_formXNN]; decide

theorem addImm (x : Reg) (nn : Byte) : Statement (.addImm x nn) := by
  rw [Statement, encode, Instr.row, maskOp_eq, opField_formXNN]; decide

theorem ldReg (x y : Reg) : Statement (.ldReg x y) := by
  rw [Statement, encode, Instr.row, maskOpN_eq, opField_formXYN, nField_formXYN]; decide

theorem orReg (x y : Reg) : Statement (.orReg x y) := by
  rw [Statement, encode, Instr.row, maskOpN_eq, opField_formXYN, nField_formXYN]; decide

theorem andReg (x y : Reg) : Statement (.andReg x y) := by
  rw [Statement, encode, Instr.row, maskOpN_eq, opField_formXYN, nField_formXYN]; decide

theorem xorReg (x y : Reg) : Statement (.xorReg x y) := by
  rw [Statement, encode, Instr.row, maskOpN_eq, opField_formXYN, nField_formXYN]; decide

theorem addReg (x y : Reg) : Statement (.addReg x y) := by
  rw [Statement, encode, Instr.row, maskOpN_eq, opField_formXYN, nField_formXYN]; decide

theorem sub (x y : Reg) : Statement (.sub x y) := by
  rw [Statement, encode, Instr.row, maskOpN_eq, opField_formXYN, nField_formXYN]; decide

theorem shr (x y : Reg) : Statement (.shr x y) := by
  rw [Statement, encode, Instr.row, maskOpN_eq, opField_formXYN, nField_formXYN]; decide

theorem subn (x y : Reg) : Statement (.subn x y) := by
  rw [Statement, encode, Instr.row, maskOpN_eq, opField_formXYN, nField_formXYN]; decide

theorem shl (x y : Reg) : Statement (.shl x y) := by
  rw [Statement, encode, Instr.row, maskOpN_eq, opField_formXYN, nField_formXYN]; decide

theorem ldI (nnn : Addr) : Statement (.ldI nnn) := by
  rw [Statement, encode, Instr.row, maskOp_eq, opField_formNNN]; decide

theorem jpV0 (nnn : Addr) : Statement (.jpV0 nnn) := by
  rw [Statement, encode, Instr.row, maskOp_eq, opField_formNNN]; decide

theorem drw (x y : Reg) (n : Nibble) : Statement (.drw x y n) := by
  rw [Statement, encode, Instr.row, maskOp_eq, opField_formXYN]; decide

theorem skp (x : Reg) : Statement (.skp x) := by
  rw [Statement, encode, Instr.row, maskOpNN_eq, opField_formXNN, nnField_formXNN]; decide

theorem sknp (x : Reg) : Statement (.sknp x) := by
  rw [Statement, encode, Instr.row, maskOpNN_eq, opField_formXNN, nnField_formXNN]; decide

theorem ldVxDt (x : Reg) : Statement (.ldVxDt x) := by
  rw [Statement, encode, Instr.row, maskOpNN_eq, opField_formXNN, nnField_formXNN]; decide

theorem ldDtVx (x : Reg) : Statement (.ldDtVx x) := by
  rw [Statement, encode, Instr.row, maskOpNN_eq, opField_formXNN, nnField_formXNN]; decide

theorem addIVx (x : Reg) : Statement (.addIVx x) := by
  rw [Statement, encode, Instr.row, maskOpNN_eq, opField_formXNN, nnField_formXNN]; decide

theorem ldVxK (x : Reg) : Statement (.ldVxK x) := by
  rw [Statement, encode, Instr.row, maskOpNN_eq, opField_formXNN, nnField_formXNN]; decide

theorem ldBVx (x : Reg) : Statement (.ldBVx x) := by
  rw [Statement, encode, Instr.row, maskOpNN_eq, opField_formXNN, nnField_formXNN]; decide

theorem ldMemVx (x : Reg) : Statement (.ldMemVx x) := by
  rw [Statement, encode, Instr.row, maskOpNN_eq, opField_formXNN, nnField_formXNN]; decide

theorem ldVxMem (x : Reg) : Statement (.ldVxMem x) := by
  rw [Statement, encode, Instr.row, maskOpNN_eq, opField_formXNN, nnField_formXNN]; decide

theorem sys (nnn : Addr) : Statement (.sys nnn) := by
  rw [Statement, encode, Instr.row, maskOp_eq, opField_formNNN]; decide

theorem rnd (x : Reg) (nn : Byte) : Statement (.rnd x nn) := by
  rw [Statement, encode, Instr.row, maskOp_eq, opField_formXNN]; decide

theorem ldStVx (x : Reg) : Statement (.ldStVx x) := by
  rw [Statement, encode, Instr.row, maskOpNN_eq, opField_formXNN, nnField_formXNN]; decide

theorem ldFVx (x : Reg) : Statement (.ldFVx x) := by
  rw [Statement, encode, Instr.row, maskOpNN_eq, opField_formXNN, nnField_formXNN]; decide

end Sys2Proof.Laws.OpcodeRow
end

