-- ==== Sys2Proof/Machine/Assembly.lean ====
section
/-! DEFINITION. The assembler spelling of an instruction (`spec/30_encoding.md` R101), for reading programs beside the
spec. No step reads it. -/

namespace Sys2Proof

/-- One hexadecimal digit, in capitals. -/
def hexDigit (d : Nat) : Char :=
  if d < 10 then Char.ofNat (48 + d) else Char.ofNat (55 + d)

/-- The hexadecimal digits of `n`, `width` of them. -/
def hexDigits (width n : Nat) : List Char :=
  match width with
  | 0 => []
  | k + 1 => hexDigits k (n / 16) ++ [hexDigit (n % 16)]

/-- A number as R101 writes it: `0x` and its digits. -/
def asmNumber (width n : Nat) : String := "0x" ++ String.ofList (hexDigits width n)

/-- `V0` to `VF`. -/
def asmReg (x : Reg) : String := "V" ++ String.ofList [hexDigit x.val]

/-- The operands of the rows `Vx, Vy`. -/
def asmRegs (x y : Reg) : String := asmReg x ++ ", " ++ asmReg y

/-- The operands of the rows `Vx, byte`. -/
def asmRegByte (x : Reg) (nn : Byte) : String := asmReg x ++ ", " ++ asmNumber 2 nn.toNat

/-- The operands of SHR and SHL: one register, and the second only when the word's `Y` is not 0 (R101). -/
def asmShift (x y : Reg) : String := if y = 0 then asmReg x else asmRegs x y

/-- The assembly line of an instruction, the mnemonic column of R96 with its operands. -/
def assembly : Instr → String
  | .cls => "CLS"
  | .ret => "RET"
  | .jp nnn => "JP " ++ asmNumber 3 nnn.toNat
  | .call nnn => "CALL " ++ asmNumber 3 nnn.toNat
  | .seImm x nn => "SE " ++ asmRegByte x nn
  | .sneImm x nn => "SNE " ++ asmRegByte x nn
  | .seReg x y => "SE " ++ asmRegs x y
  | .sneReg x y => "SNE " ++ asmRegs x y
  | .ldImm x nn => "LD " ++ asmRegByte x nn
  | .addImm x nn => "ADD " ++ asmRegByte x nn
  | .ldReg x y => "LD " ++ asmRegs x y
  | .orReg x y => "OR " ++ asmRegs x y
  | .andReg x y => "AND " ++ asmRegs x y
  | .xorReg x y => "XOR " ++ asmRegs x y
  | .addReg x y => "ADD " ++ asmRegs x y
  | .sub x y => "SUB " ++ asmRegs x y
  | .shr x y => "SHR " ++ asmShift x y
  | .subn x y => "SUBN " ++ asmRegs x y
  | .shl x y => "SHL " ++ asmShift x y
  | .ldI nnn => "LD I, " ++ asmNumber 3 nnn.toNat
  | .jpV0 nnn => "JP V0, " ++ asmNumber 3 nnn.toNat
  | .drw x y n => "DRW " ++ asmRegs x y ++ ", " ++ toString n.toNat
  | .skp x => "SKP " ++ asmReg x
  | .sknp x => "SKNP " ++ asmReg x
  | .ldVxDt x => "LD " ++ asmReg x ++ ", DT"
  | .ldDtVx x => "LD DT, " ++ asmReg x
  | .addIVx x => "ADD I, " ++ asmReg x
  | .ldVxK x => "LD " ++ asmReg x ++ ", K"
  | .ldBVx x => "LD B, " ++ asmReg x
  | .ldMemVx x => "LD [I], " ++ asmReg x
  | .ldVxMem x => "LD " ++ asmReg x ++ ", [I]"
  | .sys nnn => "SYS " ++ asmNumber 3 nnn.toNat
  | .rnd x nn => "RND " ++ asmRegByte x nn
  | .ldStVx x => "LD ST, " ++ asmReg x
  | .ldFVx x => "LD F, " ++ asmReg x

end Sys2Proof
end

