-- ==== Sys2Proof/Tests/Slice0.lean ====
section
/-! SUPPORT. The model's own tests: the smoke test of well-formedness, the decoding of words written out from the spec,
one-step tests whose expected values are the vectors of `spec/95_test_vectors.md` (named there S1 to S12, T1 to T155),
and, for every obligation with hypotheses, a witness that meets them. -/

namespace Sys2Proof.Tests

open Sys2Proof.Machine

set_option Elab.async false

/-! ### Helpers -/

/-- The state after one step that fetches the word `w`; every step answers a next state. -/
def afterWord (w : Nat) (s : State) : State :=
  match step (s.withFetchWord 16 w) with
  | .next t => t
  | .fault _ => s
  | .refused _ => s

/-- The state after one step of `s` as it stands. -/
def afterStep (s : State) : State :=
  match step s with
  | .next t => t
  | .fault _ => s
  | .refused _ => s

/-- The state after `exec i`. -/
def afterExec (i : Instr) (s : State) : State :=
  match exec i s with
  | .next t => t
  | .fault _ => s
  | .refused _ => s

/-- The reset state with register values. -/
def withRegs (l : List (Reg × Byte)) : State := l.foldl (fun s p => s.setReg p.1 p.2) State.reset

/-- The columns of row `y` that are on. -/
def litColumns (s : State) (y : Fin 32) : List Nat := ((List.finRange 64).filter fun x => s.pixel y x).map (·.val)

/-! ### Well-formedness: the one check, and its neighbours -/

theorem test_wf_sys_cls_refused : (Instr.sys 0x0E0).wellFormed = false := by decide
theorem test_wf_sys_ret_refused : (Instr.sys 0x0EE).wellFormed = false := by decide
theorem test_wf_sys_others : (Instr.sys 0x1E0).wellFormed = true ∧ (Instr.sys 0x0E1).wellFormed = true := by decide

/-! ### Decoding: every row of R96, each word written out bit by bit from the row's pattern -/

theorem test_decode_display_and_return :
    decode Config.noExtOps 0b0000000011100000 = .ok .cls ∧ decode Config.noExtOps 0b0000000011101110 = .ok .ret
      ∧ decode Config.noExtOps 0b1101000000010101 = .ok (.drw 0 1 5) := by decide

theorem test_decode_jumps :
    decode Config.noExtOps 0b0001001000101000 = .ok (.jp 0x228)
      ∧ decode Config.noExtOps 0b0010001000010000 = .ok (.call 0x210)
      ∧ decode Config.noExtOps 0b1011001100000000 = .ok (.jpV0 0x300) := by decide

theorem test_decode_skips :
    decode Config.noExtOps 0b0011000100000000 = .ok (.seImm 1 0x00)
      ∧ decode Config.noExtOps 0b0100001000001000 = .ok (.sneImm 2 0x08)
      ∧ decode Config.noExtOps 0b0101001101000000 = .ok (.seReg 3 4)
      ∧ decode Config.noExtOps 0b1001001101000000 = .ok (.sneReg 3 4)
      ∧ decode Config.noExtOps 0b1110010010011110 = .ok (.skp 4)
      ∧ decode Config.noExtOps 0b1110010010100001 = .ok (.sknp 4) := by decide

theorem test_decode_loads :
    decode Config.noExtOps 0b0110000011101010 = .ok (.ldImm 0 0xEA)
      ∧ decode Config.noExtOps 0b0111000111111111 = .ok (.addImm 1 0xFF)
      ∧ decode Config.noExtOps 0b1000111011110000 = .ok (.ldReg 14 15)
      ∧ decode Config.noExtOps 0b1010001100000000 = .ok (.ldI 0x300) := by decide

theorem test_decode_alu :
    decode Config.noExtOps 0b1000000100100001 = .ok (.orReg 1 2)
      ∧ decode Config.noExtOps 0b1000000100100010 = .ok (.andReg 1 2)
      ∧ decode Config.noExtOps 0b1000000100100011 = .ok (.xorReg 1 2)
      ∧ decode Config.noExtOps 0b1000001110100100 = .ok (.addReg 3 10)
      ∧ decode Config.noExtOps 0b1000000100100101 = .ok (.sub 1 2)
      ∧ decode Config.noExtOps 0b1000001111110110 = .ok (.shr 3 15)
      ∧ decode Config.noExtOps 0b1000000100100111 = .ok (.subn 1 2)
      ∧ decode Config.noExtOps 0b1000001100001110 = .ok (.shl 3 0) := by decide

theorem test_decode_f_rows :
    decode Config.noExtOps 0b1111000100000111 = .ok (.ldVxDt 1)
      ∧ decode Config.noExtOps 0b1111001100001010 = .ok (.ldVxK 3)
      ∧ decode Config.noExtOps 0b1111000000010101 = .ok (.ldDtVx 0)
      ∧ decode Config.noExtOps 0b1111001000011110 = .ok (.addIVx 2)
      ∧ decode Config.noExtOps 0b1111000000110011 = .ok (.ldBVx 0)
      ∧ decode Config.noExtOps 0b1111001101010101 = .ok (.ldMemVx 3)
      ∧ decode Config.noExtOps 0b1111001001100101 = .ok (.ldVxMem 2) := by decide

theorem test_decode_optional :
    decode Config.allExtOps 0b0000000100100011 = .ok (.sys 0x123)
      ∧ decode Config.allExtOps 0b1100001100001111 = .ok (.rnd 3 0x0F)
      ∧ decode Config.allExtOps 0b1111000000011000 = .ok (.ldStVx 0)
      ∧ decode Config.allExtOps 0b1111001000101001 = .ok (.ldFVx 2) := by decide

/-- T5 to T12: the words of R98. -/
theorem test_decode_rejects :
    (([0x0000, 0x00E1, 0x01E0, 0x5121, 0x9AB1, 0x8128, 0x812F, 0x8129, 0xE19F, 0xE0A0, 0xE100, 0xF000, 0xF166, 0xF175,
        0xF185, 0xF01F, 0xF00B, 0xC3FF, 0xF018, 0xF029, 0x0123] : List Word).all fun w =>
      decide (decode Config.noExtOps w = .error (.unknownInstruction w))) = true := by decide +kernel

/-- One byte is no instruction (R90), and what follows an instruction is handed back. -/
theorem test_decode_bytes :
    decodeBytes Config.noExtOps [0x12] = .error (.truncated 1)
      ∧ decodeBytes Config.noExtOps [0x12, 0x28, 0xFF] = .ok (.jp 0x228, [0xFF]) := by decide

/-- The form the opcode table is numbered in: bit 0 is the word's least significant bit. -/
theorem test_decode_table_word :
    decodeTableWord 16 0xD015 = some (.drw 0 1 5) ∧ decodeTableWord 16 0xF229 = some (.ldFVx 2)
      ∧ decodeTableWord 16 0x5121 = none := by decide

/-- R101, R103, and the listing of P3: the assembly lines of words. -/
theorem test_assembly :
    assembly (.jp 0x228) = "JP 0x228" ∧ assembly (.drw 0 1 5) = "DRW V0, V1, 5" ∧ assembly (.ldVxMem 2) = "LD V2, [I]"
      ∧ assembly (.ldReg 14 15) = "LD VE, VF" ∧ assembly (.ldImm 0 0x3C) = "LD V0, 0x3C"
      ∧ assembly (.shr 3 0) = "SHR V3" := by decide +kernel

/-! ### Fetch, faults and reset -/

/-- T143: the first step from reset, with nothing placed, meets the word 0x0000. -/
theorem test_reset_then_step :
    (afterStep State.reset).fault = some ⟨.unknownInstruction 0x0000, 0x0200⟩ ∧ (afterStep State.reset).pc = 0x0200 := by
  decide +kernel

/-- T1: an odd `PC` fetches normally. -/
theorem test_fetch_odd_pc :
    (afterWord 0x1205 { State.reset with pc := 0x0201 }).pc = 0x0205
      ∧ (afterWord 0x1205 { State.reset with pc := 0x0201 }).ir = 0x1205 := by decide +kernel

/-- T3: the two bytes at 0x0FFF are not both in memory; `IR` stays. -/
theorem test_fetch_at_last_byte :
    (afterStep { State.reset with pc := 0x0FFF, ir := 0x1FFF }).fault = some ⟨.addressingError 0x0FFF 2, 0x0FFF⟩
      ∧ (afterStep { State.reset with pc := 0x0FFF, ir := 0x1FFF }).ir = 0x1FFF := by decide +kernel

/-- T140, T144: `reset([0x12, 0x00])` of a faulted core. -/
theorem test_reset_event :
    let t := afterStep { raise .stackOverflow 0x0300 State.reset with inputs := [.reset [0x12, 0x00]] }
    t.byteAt 0x200 = 0x12 ∧ t.byteAt 0x050 = 0xF0 ∧ t.fault = none ∧ t.run = .running ∧ t.pc = 0x0200 := by decide +kernel

/-- T141, T142: the largest ROM that fits, and one byte more. -/
theorem test_reset_rom_bound :
    (boot (List.replicate 3584 0) State.reset).run = .running
      ∧ (boot (List.replicate 3585 0) State.reset).fault = some ⟨.addressingError 0x200 3585, 0x0200⟩ := by decide +kernel

/-! ### Control transfer -/

/-- S1. -/
theorem test_jp_from_zero : (afterWord 0x1228 { State.reset with pc := 0x0000 }).pc = 0x0228 := by decide +kernel

/-- T24: the return address of a CALL at 0x0FFE. -/
theorem test_call_pushes :
    let t := afterWord 0x2300 { State.reset with pc := 0x0FFE }
    t.stack[0] = 0x1000 ∧ t.sp = 1 ∧ t.pc = 0x0300 := by decide +kernel

/-- T25. -/
theorem test_call_overflow :
    let t := afterWord 0x2210 { State.reset with sp := 16 }
    t.fault = some ⟨.stackOverflow, 0x0200⟩ ∧ t.sp = 16 ∧ t.pc = 0x0200 := by decide +kernel

/-- T27: the released entry stays. -/
theorem test_ret_pops :
    let t := afterWord 0x00EE
      { State.reset with sp := 2, stack := (State.reset.stack.set 1 0x0345).set 0 0x0206 }
    t.pc = 0x0345 ∧ t.sp = 1 ∧ t.stack[1] = 0x0345 := by decide +kernel

/-- T26. -/
theorem test_ret_underflow : (afterWord 0x00EE State.reset).fault = some ⟨.stackUnderflow, 0x0200⟩ := by decide +kernel

/-- T29: 16 bits hold the sum. -/
theorem test_jp_v0_past_memory : (afterWord 0xBFFF (withRegs [(0, 0xFF)])).pc = 0x10FE := by decide +kernel

/-- T30: the register is V0, whatever the word's `X` nibble. -/
theorem test_jp_v0_register : (afterWord 0xB2FF (withRegs [(2, 0x80)])).pc = 0x02FF := by decide +kernel

/-- T31. -/
theorem test_se_imm :
    (afterWord 0x3100 { State.reset with pc := 0x208 }).pc = 0x020C
      ∧ (afterWord 0x3100 { withRegs [(1, 1)] with pc := 0x208 }).pc = 0x020A := by decide +kernel

/-- T34. -/
theorem test_sne_imm :
    (afterWord 0x4208 { withRegs [(2, 7)] with pc := 0x300 }).pc = 0x0304
      ∧ (afterWord 0x4208 { withRegs [(2, 8)] with pc := 0x300 }).pc = 0x0302 := by decide +kernel

/-- T35. -/
theorem test_se_reg :
    (afterWord 0x5340 (withRegs [(3, 0x10), (4, 0x10)])).pc = 0x0204
      ∧ (afterWord 0x5340 (withRegs [(3, 0x10), (4, 0x11)])).pc = 0x0202 := by decide +kernel

/-- T37. -/
theorem test_sne_reg :
    (afterWord 0x9340 (withRegs [(3, 0x10), (4, 0x11)])).pc = 0x0204
      ∧ (afterWord 0x9340 (withRegs [(3, 0x10), (4, 0x10)])).pc = 0x0202 := by decide +kernel

/-! ### Loads, arithmetic and logic -/

/-- T50. -/
theorem test_ld_imm : (afterWord 0x60EA State.reset).reg 0 = 0xEA ∧ (afterWord 0x60EA State.reset).pc = 0x0202 := by
  decide +kernel

/-- T52: no flag on wrap-around. -/
theorem test_add_imm_wraps :
    (afterWord 0x7001 (withRegs [(0, 0xFF)])).reg 0 = 0x00 ∧ (afterWord 0x7001 (withRegs [(0, 0xFF)])).reg 15 = 0 := by
  decide +kernel

/-- T55. -/
theorem test_ld_reg : (afterWord 0x8EF0 (withRegs [(15, 1)])).reg 14 = 1 := by decide +kernel

/-- T57, T58. -/
theorem test_or :
    (afterWord 0x8121 (withRegs [(1, 0x0C), (2, 0x0A), (15, 1)])).reg 1 = 0x0E
      ∧ (afterWord 0x8F11 (withRegs [(15, 0x0F), (1, 0xF0)])).reg 15 = 0 := by decide +kernel

/-- T57. -/
theorem test_and : (afterWord 0x8122 (withRegs [(1, 0x0C), (2, 0x0A)])).reg 1 = 0x08 := by decide +kernel

/-- T57, T60. -/
theorem test_xor :
    (afterWord 0x8123 (withRegs [(1, 0x0C), (2, 0x0A)])).reg 1 = 0x06
      ∧ (afterWord 0x8223 (withRegs [(2, 0x77)])).reg 2 = 0 := by decide +kernel

/-- S2, T64: the old VF is the operand. -/
theorem test_add_reg_carry :
    (afterWord 0x8124 (withRegs [(1, 0xFF), (2, 0x01)])).reg 15 = 1
      ∧ (afterWord 0x80F4 (withRegs [(0, 0x01), (15, 0xFF)])).reg 0 = 0 := by decide +kernel

/-- T62: the sum is lost when the destination is VF. -/
theorem test_add_reg_into_vf : (afterWord 0x8F14 (withRegs [(15, 0xF0), (1, 0x20)])).reg 15 = 1 := by decide +kernel

/-- S4, S5. -/
theorem test_sub :
    (afterWord 0x8125 (withRegs [(1, 5), (2, 3)])).reg 15 = 1
      ∧ (afterWord 0x8125 (withRegs [(1, 3), (2, 5)])).reg 1 = 0xFE := by decide +kernel

/-- T65: equal operands, no borrow. -/
theorem test_sub_equal : (afterWord 0x8335 (withRegs [(3, 0x55)])).reg 15 = 1 := by decide +kernel

/-- T69. -/
theorem test_subn :
    (afterWord 0x8127 (withRegs [(1, 3), (2, 5)])).reg 1 = 0x02
      ∧ (afterWord 0x8127 (withRegs [(1, 5), (2, 3)])).reg 15 = 0 := by decide +kernel

/-- T72: `Y` ignored. -/
theorem test_shr :
    (afterWord 0x83F6 (withRegs [(3, 0x05), (15, 0xAA)])).reg 3 = 0x02
      ∧ (afterWord 0x83F6 (withRegs [(3, 0x05), (15, 0xAA)])).reg 15 = 1 := by decide +kernel

/-- T73: under both values of `VF_ORDER`. -/
theorem test_shr_of_vf :
    (afterWord 0x8F06 (withRegs [(15, 0x05)])).reg 15 = 0x02
      ∧ (afterWord 0x8F06
          { withRegs [(15, 0x05)] with cfg := { Config.defaults with vfOrder := .flagLast } }).reg 15 = 0x01 := by
  decide +kernel

/-- T74. -/
theorem test_shl :
    (afterWord 0x830E (withRegs [(3, 0x81)])).reg 3 = 0x02 ∧ (afterWord 0x830E (withRegs [(3, 0x40)])).reg 15 = 0 := by
  decide +kernel

/-- T76: under both values of `VF_ORDER`. -/
theorem test_shl_of_vf :
    (afterWord 0x8F0E (withRegs [(15, 0x01)])).reg 15 = 0x02
      ∧ (afterWord 0x8F0E
          { withRegs [(15, 0x01)] with cfg := { Config.defaults with vfOrder := .flagLast } }).reg 15 = 0x00 := by
  decide +kernel

/-! ### Index and memory transfer -/

/-- T81. -/
theorem test_ld_i : (afterWord 0xAFFF State.reset).i = 0x0FFF := by decide +kernel

/-- T83, T84: past 0x0FFF without a flag, and around at 16 bits. -/
theorem test_add_i :
    (afterWord 0xF01E { withRegs [(0, 1)] with i := 0x0FFF }).i = 0x1000
      ∧ (afterWord 0xF01E { withRegs [(0, 2)] with i := 0xFFFF }).i = 0x0001 := by decide +kernel

/-- T85. -/
theorem test_bcd :
    let t := afterWord 0xF033 { withRegs [(0, 234)] with i := 0x300 }
    t.byteAt 0x300 = 2 ∧ t.byteAt 0x301 = 3 ∧ t.byteAt 0x302 = 4 ∧ t.i = 0x300 := by decide +kernel

/-- T88. -/
theorem test_bcd_past_memory :
    let t := afterWord 0xF033 { withRegs [(0, 123)] with i := 0x0FFE }
    t.fault = some ⟨.addressingError 0x0FFE 3, 0x0200⟩ ∧ t.byteAt 0x0FFE = 0 := by decide +kernel

/-- T89, and S9's store. -/
theorem test_store_regs :
    let t := afterWord 0xF355 { withRegs [(0, 0x11), (1, 0x22), (2, 0x33), (3, 0x44)] with i := 0x400 }
    t.byteAt 0x400 = 0x11 ∧ t.byteAt 0x403 = 0x44 ∧ t.byteAt 0x404 = 0 ∧ t.i = 0x404 := by decide +kernel

/-- T91. -/
theorem test_store_regs_past_memory :
    let t := afterWord 0xFF55 { withRegs [(0, 9)] with i := 0x0FF1 }
    t.fault = some ⟨.addressingError 0x0FF1 16, 0x0200⟩ ∧ t.i = 0x0FF1 ∧ t.byteAt 0x0FF1 = 0 := by decide +kernel

/-- T92's frame and T93's values: the font. -/
theorem test_load_regs :
    let t := afterWord 0xF465 { withRegs [(5, 0x99)] with i := 0x0050 }
    t.reg 0 = 0xF0 ∧ t.reg 1 = 0x90 ∧ t.reg 4 = 0xF0 ∧ t.reg 5 = 0x99 ∧ t.i = 0x0055 := by decide +kernel

/-- T94. -/
theorem test_load_regs_past_memory :
    let t := afterWord 0xF165 { withRegs [(0, 7)] with i := 0x0FFF }
    t.fault = some ⟨.addressingError 0x0FFF 2, 0x0200⟩ ∧ t.reg 0 = 7 ∧ t.i = 0x0FFF := by decide +kernel

/-! ### Display -/

/-- S7, T114. -/
theorem test_cls :
    let t := afterWord 0x00E0 { State.reset with fb := Vector.replicate 32 (Vector.replicate 64 true), fbDirty := false }
    litColumns t 0 = [] ∧ litColumns t 31 = [] ∧ t.fbDirty = true := by decide +kernel

/-- S6: the right edge clips. -/
theorem test_drw_clips :
    let t := afterWord 0xD011 ({ withRegs [(0, 60)] with i := 0x300 }.store 0x300 [0xFF])
    litColumns t 0 = [60, 61, 62, 63] ∧ litColumns t 1 = [] ∧ t.reg 15 = 0 := by decide +kernel

/-- T102: a collision. -/
theorem test_drw_collision :
    let t := afterWord 0xD011
      ({ State.reset with i := 0x300, fb := State.reset.fb.set 0 ((Vector.replicate 64 false).set 0 true) }.store 0x300 [0xC0])
    litColumns t 0 = [1] ∧ t.reg 15 = 1 := by decide +kernel

/-! ### Keys and timers -/

/-- T120. -/
theorem test_skp :
    (afterWord 0xE49E ((withRegs [(4, 5)]).setKey 5 true)).pc = 0x0204
      ∧ (afterWord 0xE49E (withRegs [(4, 5)])).pc = 0x0202 := by decide +kernel

/-- T122. -/
theorem test_skp_out_of_range :
    (afterWord 0xE09E (withRegs [(0, 0x10)])).fault = some ⟨.keyIndexError 0x10, 0x0200⟩ := by decide +kernel

/-- T121. -/
theorem test_sknp :
    (afterWord 0xE4A1 (withRegs [(4, 5)])).pc = 0x0204
      ∧ (afterWord 0xE4A1 ((withRegs [(4, 5)]).setKey 5 true)).pc = 0x0202 := by decide +kernel

/-- T123 under `not_pressed`. -/
theorem test_sknp_not_pressed :
    (afterWord 0xE0A1
      { withRegs [(0, 0xFF)] with cfg := { Config.defaults with keyOor := .notPressed } }).pc = 0x0204 := by decide +kernel

/-- T124. -/
theorem test_ld_vx_dt : (afterWord 0xF107 { State.reset with dt := 2 }).reg 1 = 2 := by decide +kernel

/-- T125. -/
theorem test_ld_dt_vx : (afterWord 0xF015 { withRegs [(0, 3)] with dt := 0x77 }).dt = 3 := by decide +kernel

/-- T129. -/
theorem test_ld_vx_k :
    (afterWord 0xF30A { State.reset with pc := 0x230 }).run = .waitPress 3
      ∧ (afterWord 0xF30A { State.reset with pc := 0x230 }).pc = 0x0232 := by decide +kernel

/-- T131, T132: the lowest key is latched, and its release writes the register. -/
theorem test_wait_steps :
    (afterStep { (State.reset.setKey 9 true).setKey 2 true with run := .waitPress 3 }).run = .waitRelease 3 2
      ∧ (afterStep { State.reset with run := .waitRelease 3 7 }).reg 3 = 7 := by decide +kernel

/-- T126, T127. -/
theorem test_timer_tick :
    (afterStep { State.reset with dt := 1, timerEn := true, inputs := [.timerTick] }).dt = 0
      ∧ (afterStep { State.reset with dt := 9, inputs := [.timerTick] }).dt = 9 := by decide +kernel

/-- T128: a timer step in `Faulted`. -/
theorem test_timer_tick_in_faulted :
    (afterStep { raise .stackOverflow 0x0300 State.reset with dt := 9, timerEn := true, inputs := [.timerTick] }).dt = 8 := by
  decide +kernel

/-! ### The optional instructions, with their gates -/

/-- T150, and T12's half without the gate. -/
theorem test_sys :
    (afterWord 0x0123 State.reset).pc = 0x0202 ∧ decode Config.noExtOps 0x0123 = .error (.unknownInstruction 0x0123) := by
  decide +kernel

/-- T152: no bit outside `NN` is written, whatever is drawn. -/
theorem test_rnd_mask (s : State) : (afterExec (.rnd 3 0x00) s).reg 3 = 0x00 := by
  simp [afterExec, exec, execRnd, State.setReg, State.countDraw, State.reg]

/-- T153. -/
theorem test_ld_st_vx :
    (afterWord 0xF018 (withRegs [(0, 4)])).st = 4 ∧ (afterWord 0xF018 (withRegs [(0, 4)])).soundActive = true := by
  decide +kernel

/-- T154, T155. -/
theorem test_ld_f_vx :
    (afterWord 0xF229 (withRegs [(2, 0x0A)])).i = 0x0082 ∧ (afterWord 0xF229 (withRegs [(2, 0x1A)])).i = 0x0082 := by
  decide +kernel

/-! ### Witnesses: for each obligation with hypotheses, a state and operands that meet them, at the ends of the ranges -/

/-- The reset state with one event listed. -/
def withEvent (e : Input) : State := { State.reset with inputs := [e] }

/-- A core that has faulted at 0x0300. -/
def faultedState : State := raise .stackOverflow 0x0300 State.reset

/-- ResetEventLoadsRom: the shortest and the longest ROM, and both values of `FB_CLEAR_ON_RESET`. -/
theorem test_witness_reset_event :
    (withEvent (.reset [])).inputs = .reset [] :: [] ∧ ([] : List Byte).length ≤ 3584
      ∧ (withEvent (.reset (List.replicate 3584 0xFF))).inputs = .reset (List.replicate 3584 0xFF) :: []
      ∧ (List.replicate 3584 (0xFF : Byte)).length ≤ 3584
      ∧ { State.reset with cfg := { Config.defaults with fbClearOnReset := false } }.cfg.fbClearOnReset = false :=
  ⟨rfl, by decide, rfl, by rw [List.length_replicate], rfl⟩

/-- OversizedRomFaultsAtReset: one byte too many. -/
theorem test_witness_oversized_rom :
    (withEvent (.reset (List.replicate 3585 0))).inputs = .reset (List.replicate 3585 0) :: []
      ∧ 3584 < (List.replicate 3585 (0 : Byte)).length := ⟨rfl, by rw [List.length_replicate]; decide⟩

/-- FontReloadedAtEveryReset: in a faulted core, the last font byte. -/
theorem test_witness_font :
    { faultedState with inputs := [.reset [0x12]] }.inputs = .reset [0x12] :: [] ∧ 79 < 80 := ⟨rfl, by decide⟩

/-- StepRunsDecodedInstruction: the last two bytes of memory, with an `instrTick` listed and with none. -/
theorem test_witness_step_runs :
    let s := { State.reset.store 4094 [0x60, 0x07] with pc := 4094 }
    s.run = .running ∧ s.TickNext ∧ { s with inputs := [.instrTick] }.TickNext ∧ s.pc.toNat + 2 ≤ 4096
      ∧ decode s.cfg.ext (s.byteAt s.pc.toNat ++ s.byteAt (s.pc.toNat + 1)) = .ok (.ldImm 0 7) := by decide +kernel

/-- FetchPastMemoryFaults: the lowest and the highest such `PC`. -/
theorem test_witness_fetch_past_memory :
    let s := { State.reset with pc := 4095 }
    let u := { State.reset with pc := 0xFFFF }
    s.run = .running ∧ s.TickNext ∧ 4095 ≤ s.pc.toNat ∧ u.run = .running ∧ u.TickNext ∧ 4095 ≤ u.pc.toNat := by
  decide +kernel

/-- UnknownWordFaults: the reset state. -/
theorem test_witness_unknown_word :
    State.reset.run = .running ∧ State.reset.TickNext ∧ fetchWord State.reset = .ok 0x0000
      ∧ ∀ i : Instr, i.enabled State.reset.cfg.ext = true → (0x0000 : Word) &&& i.row.mask = i.row.pattern →
        i.row.number = 32 ∧ ((0x0000 : Word) = 0x00E0 ∨ (0x0000 : Word) = 0x00EE) :=
  ⟨rfl, by decide, rfl, fun i h hw => by cases i <;> first | (simp [Instr.row] at hw; done) | cases h⟩

/-- FaultSticksUntilReset: a tick, and a timer tick, in a faulted core. -/
theorem test_witness_fault_sticks :
    (faultedState.run = .faulted ∧ faultedState.TickNext)
      ∧ (faultedState.FaultLatched ∧ faultedState.fault = some ⟨.stackOverflow, 0x0300⟩
        ∧ (∀ rom, ({ faultedState with inputs := [.timerTick] }.inputs.head? ≠ some (.reset rom)))
        ∧ ∃ t, step { faultedState with inputs := [.timerTick] } = .next t) :=
  ⟨by decide, by decide, rfl, nofun, _, rfl⟩

/-- InstructionFaultsArePrecise, ReturnPopsIntoPc, PcTableComplete: RET with an empty stack. -/
theorem test_witness_ret_underflow :
    State.reset.run = .running ∧ State.reset.sp.val = 0
      ∧ ∃ t, exec .ret State.reset = .next t ∧ t.run = .faulted := ⟨rfl, rfl, _, rfl, rfl⟩

/-- AddressingErrorSourcesComplete, BcdStoreResult, StoreRegistersResult, LoadRegistersResult, DrawPastMemoryFaults: the
smallest `I` at which each of the four passes the end of memory. -/
theorem test_witness_past_memory :
    let s := { State.reset with i := 4094 }
    let u := { State.reset with i := 4096 }
    let w := { State.reset with i := 4097 }
    s.fault = none ∧ 4096 < s.i.toNat + 3 ∧ 4096 < s.i.toNat + (3 : Nibble).toNat ∧ 4096 < u.i.toNat + (0 : Reg).val + 1
      ∧ 4096 < w.i.toNat + (0 : Nibble).toNat
      ∧ (∃ t p, exec (.ldBVx 0) s = .next t ∧ t.fault = some ⟨.addressingError 4094 3, p⟩)
      ∧ (∃ t p, exec (.ldMemVx 0) u = .next t ∧ t.fault = some ⟨.addressingError 4096 1, p⟩)
      ∧ (∃ t p, exec (.ldVxMem 0) u = .next t ∧ t.fault = some ⟨.addressingError 4096 1, p⟩)
      ∧ ∃ t p, exec (.drw 0 0 3) s = .next t ∧ t.fault = some ⟨.addressingError 4094 3, p⟩ :=
  ⟨rfl, by decide, by decide, by decide, by decide, ⟨_, _, rfl, rfl⟩, ⟨_, _, rfl, rfl⟩, ⟨_, _, rfl, rfl⟩, _, _, rfl, rfl⟩

/-- BcdStoreResult, StoreRegistersResult, LoadRegistersResult, DrawResult: the largest `I` at which each stays inside. -/
theorem test_witness_inside_memory :
    let s := { State.reset with i := 4093 }
    let u := { State.reset with i := 4080 }
    let w := { State.reset with i := 4096 }
    s.i.toNat + 3 ≤ 4096 ∧ u.i.toNat + (15 : Reg).val + 1 ≤ 4096 ∧ w.i.toNat + (0 : Nibble).toNat ≤ 4096
      ∧ { State.reset with i := 4081 }.i.toNat + (15 : Nibble).toNat ≤ 4096 := by decide +kernel

/-- JumpToSelfIsFixedPointAndSafe (T20). -/
theorem test_witness_jump_to_self :
    let s := State.reset.store 0x200 [0x12, 0x00]
    s.run = .running ∧ s.inputs = [] ∧ s.pc.toNat = (0x200 : Addr).toNat ∧ fetchWord s = .ok (encode (.jp 0x200)) :=
  ⟨rfl, rfl, rfl, rfl⟩

/-- DecodeOfEncode, EncodeOfDecode, OpcodeRowsSelectAndDoNotOverlap: an instruction of the document's table with nothing
enabled, and an optional one. -/
theorem test_witness_encoding :
    ((Instr.drw 0 15 15).wellFormed = true ∧ (Instr.drw 0 15 15).enabled Config.noExtOps = true
        ∧ decode Config.noExtOps 0xD0FF = .ok (.drw 0 15 15))
      ∧ ((Instr.sys 0xFFF).wellFormed = true ∧ (Instr.sys 0xFFF).enabled Config.allExtOps = true
        ∧ decode Config.allExtOps 0x0FFF = .ok (.sys 0xFFF))
      ∧ (Instr.skp 2).row.number ≤ 31 ∧ (Instr.skp 5).row.number ≤ 31
        ∧ (0xE59E : Word) &&& (Instr.skp 2).row.mask = (Instr.skp 2).row.pattern
        ∧ (0xE59E : Word) &&& (Instr.skp 5).row.mask = (Instr.skp 5).row.pattern := by decide +kernel

/-- LogicResults: each of the three forms, with VF as the destination, under both values of `Q_LOGIC_VF`; ShiftResultsAndFlags
under both values of `Q_SHIFT_SRC`. -/
theorem test_witness_logic_and_shift :
    let s := withRegs [(1, 0xF0), (15, 0x0F)]
    let u := { s with cfg := { Config.defaults with logicVf := .keep, shiftSrc := .vy } }
    (Instr.orReg 15 1 = .orReg 15 1 ∧ (0xFF : Byte) = s.reg 15 ||| s.reg 1)
      ∧ (Instr.andReg 15 1 = .andReg 15 1 ∧ (0x00 : Byte) = s.reg 15 &&& s.reg 1)
      ∧ (Instr.xorReg 15 1 = .xorReg 15 1 ∧ (0xFF : Byte) = u.reg 15 ^^^ u.reg 1)
      ∧ (0x0F : Byte) = (if s.cfg.shiftSrc = .vx then s.reg 15 else s.reg 1)
      ∧ (0xF0 : Byte) = (if u.cfg.shiftSrc = .vx then u.reg 15 else u.reg 1) := by decide +kernel

/-- StoreThenLoadRegistersRoundTrip: sixteen registers to the last sixteen bytes; OnlyBcdAndStoreWriteMemory: the byte the
store changes. -/
theorem test_witness_store_registers :
    let s := { withRegs [(15, 9)] with i := 4080 }
    s.cfg.memInc = .inc ∧ s.i.toNat + (15 : Reg).val + 1 ≤ 4096
      ∧ ∃ t, exec (.ldMemVx 15) s = .next t ∧ t.byteAt 4095 ≠ s.byteAt 4095 :=
  ⟨rfl, by decide, _, rfl, by decide +kernel⟩

/-- OnlyBcdAndStoreWriteMemory: the last byte FX33 changes. -/
theorem test_witness_bcd_writes :
    let s := { withRegs [(3, 255)] with i := 4093 }
    ∃ t, exec (.ldBVx 3) s = .next t ∧ t.byteAt 4095 ≠ s.byteAt 4095 := ⟨_, rfl, by decide +kernel⟩

/-- ReadAfterWriteReturnsBytes (S10). -/
theorem test_witness_read_after_write : 0xFFD + ([0x01, 0x02, 0x03] : List Byte).length ≤ 4096 := by decide

/-- StoreIsSeenByNextFetch: over the last two bytes. -/
theorem test_witness_store_then_fetch :
    ∃ t, memWrite { State.reset with pc := 4094 } 4094 [0x12, 0x08] = .ok t ∧ fetchWord t = .ok 0x1208 :=
  ⟨_, rfl, rfl⟩

/-- CallPushesReturnAddress, CallThenReturnRestoresPc, OnlyCallAndReturnTouchStack: the last entry that fits, and a full
stack. -/
theorem test_witness_call :
    { State.reset with sp := 15 }.sp.val < 16 ∧ { State.reset with sp := 16 }.sp.val = 16
      ∧ ∃ t, exec (.call 0x300) { State.reset with sp := 15 } = .next t
        ∧ (t.stack ≠ State.reset.stack ∨ t.sp ≠ { State.reset with sp := 15 }.sp) :=
  ⟨by decide, rfl, _, rfl, by decide +kernel⟩

/-- ReturnPopsIntoPc: one entry, and sixteen. -/
theorem test_witness_ret :
    (0 : Fin 16).val + 1 = { State.reset with sp := 1 }.sp.val ∧ (15 : Fin 16).val + 1 = { State.reset with sp := 16 }.sp.val := by
  decide

/-- VfTableComplete: an addition, under the defaults. -/
theorem test_witness_vf_table :
    let s := withRegs [(1, 0xFF), (2, 1)]
    s.run = .running ∧ s.cfg.logicVf = .zero ∧ s.cfg.shiftSrc = .vx ∧ destination (.addReg 1 2) ≠ some 15
      ∧ ∃ t, exec (.addReg 1 2) s = .next t ∧ t.run ≠ .faulted :=
  ⟨rfl, rfl, rfl, by decide, _, rfl, by decide⟩

/-- DrawResult: the corner of the screen. -/
theorem test_witness_draw :
    let s := withRegs [(0, 0xFF), (1, 0xFF)]
    63 = (s.reg 0).toNat % 64 ∧ 31 = (s.reg 1).toNat % 32 ∧ s.i.toNat + (15 : Nibble).toNat ≤ 4096 := by decide +kernel

/-- DrawTwiceRestoresScreen: a glyph of the font. -/
theorem test_witness_draw_twice :
    let s := { State.reset with i := 0x50 }
    (0 : Reg) ≠ 15 ∧ (1 : Reg) ≠ 15 ∧ s.run = .running
      ∧ ∃ t, exec (.drw 0 1 5) s = .next t ∧ t.run = .running := ⟨by decide, by decide, rfl, _, rfl, rfl⟩

/-- KeySkips: the last key, the first value out of range under `mask4`, and that value under the other two settings. -/
theorem test_witness_key_skips :
    let s := withRegs [(0, 15), (1, 16)]
    let u := { s with cfg := { Config.defaults with keyOor := .mask4 } }
    let w := { s with cfg := { Config.defaults with keyOor := .notPressed } }
    (s.reg 0).toNat = (15 : Key).val
      ∧ (16 ≤ (u.reg 1).toNat ∧ u.cfg.keyOor = .mask4 ∧ (u.reg 1).toNat % 16 = (0 : Key).val)
      ∧ (16 ≤ (w.reg 1).toNat ∧ w.cfg.keyOor = .notPressed) ∧ (16 ≤ (s.reg 1).toNat ∧ s.cfg.keyOor = .fault) := by
  decide +kernel

/-- KeyWaitFromStartToRelease: the lowest of two pressed keys, no key, the latched key down, the latched key up. -/
theorem test_witness_key_wait :
    let s := (State.reset.setKey 2 true).setKey 9 true
    let p := { s with run := .waitPress 3 }
    let q := { State.reset with run := .waitPress 3 }
    let r := { s with run := .waitRelease 3 2 }
    let u := { s with run := .waitRelease 3 7 }
    (p.TickNext ∧ p.run = .waitPress 3 ∧ p.pressed 2 = true ∧ ∀ j : Key, j < 2 → p.pressed j = false)
      ∧ (q.TickNext ∧ q.run = .waitPress 3 ∧ ∀ k, q.pressed k = false)
      ∧ (r.TickNext ∧ r.run = .waitRelease 3 2 ∧ r.pressed 2 = true)
      ∧ (u.TickNext ∧ u.run = .waitRelease 3 7 ∧ u.pressed 7 = false) := by decide +kernel

/-- TimerTickCountsDown and TimerAfterManyTicks: with the timer clock started and not. -/
theorem test_witness_timer :
    (withEvent .timerTick).inputs = .timerTick :: []
      ∧ { State.reset with timerEn := true, inputs := List.replicate 12 .timerTick }.inputs = List.replicate 12 .timerTick :=
  ⟨rfl, rfl⟩

/-- RateChangeChangesNoState, HostMovesChangeOnlyTheirs, OnlyExecutorAndResetChangeCore: each of the host's events. -/
theorem test_witness_host_events :
    (withEvent (.setInstrHz 700)).inputs = .setInstrHz 700 :: []
      ∧ (withEvent (.setKey 15 true)).inputs = .setKey 15 true :: []
      ∧ (withEvent (.setTimerEn true)).inputs = .setTimerEn true :: []
      ∧ (withEvent .fbAck).inputs = .fbAck :: []
      ∧ Input.timerTick ≠ .instrTick ∧ (∀ rom, Input.timerTick ≠ .reset rom)
      ∧ ∃ t, step (withEvent .timerTick) = .next t :=
  ⟨rfl, rfl, rfl, rfl, by decide, nofun, _, rfl⟩

/-- IrAndDirtyFlagAreNeverRead and StepKeepsParameters: the answers exist. -/
theorem test_witness_answers :
    (∃ t, exec (.ldImm 0 1) State.reset = .next t) ∧ ∃ t, step State.reset = .next t := ⟨⟨_, rfl⟩, _, rfl⟩

/-- SoundStaysOffWithoutLdSt. -/
theorem test_witness_sound :
    State.reset.cfg.ext.ldSt = false ∧ State.reset.st = 0 ∧ ∃ t, step State.reset = .next t := ⟨rfl, rfl, _, rfl⟩

/-- StepKeepsMemoryCanonical and StepKeepsInvariants: a state with a byte listed, `PC` and a stack entry at their bounds. -/
theorem test_witness_invariants :
    let s := { State.reset.store 4095 [0xFF] with pc := 0x10FE, sp := 1, stack := State.reset.stack.set 0 4096 }
    s.MemCanonical ∧ s.Inv ∧ ∃ t, step s = .next t :=
  ⟨by decide +kernel, ⟨by decide +kernel, by decide +kernel, by decide +kernel, by decide +kernel⟩, _, rfl⟩

/-- A memory out of order, one with a listed reset value, and one past the end are not canonical. -/
theorem test_memory_wf_refuses :
    Memory.wf Config.defaultFont [(0x301, 1), (0x300, 1)] = false ∧ Memory.wf Config.defaultFont [(0x300, 0)] = false
      ∧ Memory.wf Config.defaultFont [(0x050, 0xF0)] = false ∧ Memory.wf Config.defaultFont [(4096, 1)] = false := by
  decide +kernel

end Sys2Proof.Tests
end

section
/-! The input events of the timer clock and the host: what each does to the state, and what none of them touches
(`spec/00_scope.md` R8, R9). -/

namespace Sys2Proof.Machine

/-! ### One equation per input event -/

@[simp] theorem handleInput_instrTick (s : State) : handleInput .instrTick s = executorStep s := rfl
@[simp] theorem handleInput_timerTick (s : State) : handleInput .timerTick s = .next (timerStep s) := rfl
@[simp] theorem handleInput_setKey (k : Key) (down : Bool) (s : State) :
    handleInput (.setKey k down) s = .next (s.setKey k down) := rfl
@[simp] theorem handleInput_setTimerEn (on : Bool) (s : State) :
    handleInput (.setTimerEn on) s = .next (s.setTimerEn on) := rfl
@[simp] theorem handleInput_fbAck (s : State) : handleInput .fbAck s = .next s.clearDirty := rfl
@[simp] theorem handleInput_reset (rom : List Byte) (s : State) : handleInput (.reset rom) s = .next (boot rom s) := rfl
@[simp] theorem handleInput_setInstrHz (hz : Nat) (s : State) : handleInput (.setInstrHz hz) s = .next s := rfl

/-! ### What these events leave unchanged -/

/-- The timer step writes the two timers, and only while the timer clock runs (R217, R218). -/
theorem timerStep_eq (s : State) :
    timerStep s =
      { s with dt := if s.timerEn then countDown s.dt else s.dt, st := if s.timerEn then countDown s.st else s.st } := by
  by_cases h : s.timerEn = true
  · simp only [timerStep, if_pos h]; rfl
  · simp only [timerStep, if_neg h]

/-- Everything an event of the timer clock, or of the host other than a reset, can change (R9): the timers, the keys,
`timer_en` and the dirty flag, the timers in a timer tick alone. -/
theorem handleInput_frame {e : Input} {s t : State} (hi : e ≠ .instrTick) (hr : ∀ rom, e ≠ .reset rom)
    (h : handleInput e s = .next t) :
    ∃ dt st keys on dirty, t = { s with dt := dt, st := st, keys := keys, timerEn := on, fbDirty := dirty }
      ∧ (e ≠ .timerTick → dt = s.dt ∧ st = s.st) := by
  cases e with
  | instrTick => exact absurd rfl hi
  | reset rom => exact absurd rfl (hr rom)
  | timerTick =>
    rw [handleInput_timerTick, timerStep_eq] at h
    cases h
    exact ⟨_, _, _, _, _, rfl, fun hne => absurd rfl hne⟩
  | setKey k down => cases h; exact ⟨_, _, _, _, _, rfl, fun _ => ⟨rfl, rfl⟩⟩
  | setTimerEn on => cases h; exact ⟨_, _, _, _, _, rfl, fun _ => ⟨rfl, rfl⟩⟩
  | fbAck => cases h; exact ⟨_, _, _, _, _, rfl, fun _ => ⟨rfl, rfl⟩⟩
  | setInstrHz hz => cases h; exact ⟨_, _, _, _, _, rfl, fun _ => ⟨rfl, rfl⟩⟩

/-! ### The obligations -/

/-- Settles O52: the step handles the event `e`, and `handleInput_frame` names the only fields that can change. -/
theorem onlyExecutorAndResetChangeCore : Obligations.OnlyExecutorAndResetChangeCore := by
  intro s t e rest hin hi hr hstep
  rw [step_of_inputs hin] at hstep
  obtain ⟨dt, st, keys, on, dirty, rfl, htimers⟩ := handleInput_frame hi hr hstep
  exact ⟨rfl, rfl, rfl, rfl, rfl, rfl, rfl, rfl, rfl, rfl, htimers⟩

/-- Settles O51: each move is one named update of the state whose first event is used up. -/
theorem hostMovesChangeOnlyTheirs : Obligations.HostMovesChangeOnlyTheirs := by
  intro s rest
  refine ⟨fun k down hin => ?_, fun on hin => ?_, fun hin => ?_⟩
  · refine ⟨(s.setInputs rest).setKey k down, ?_, rfl, fun j => ?_⟩
    · rw [step_of_inputs hin, handleInput_setKey]
    · rw [State.pressed_setKey, State.setInputs_pressed]
  · rw [step_of_inputs hin, handleInput_setTimerEn]; rfl
  · rw [step_of_inputs hin, handleInput_fbAck]; rfl

end Sys2Proof.Machine
end

section
/-! Everything an instruction and a step can do to each part of the state (`spec/10_state.md`), said once: `exec_cases`
and `step_effect`. The obligations of the state and its invariants follow from these two. -/

namespace Sys2Proof.Machine

/-! ### What an instruction can do -/

/-- CALL and RET, the two instructions that use the call stack (R28). -/
def touchesStack : Instr → Bool
  | .call _ | .ret => true
  | _ => false

/-- The effect of an instruction that raises no fault, part by part: `PC` by the table of R25, the stack and `SP` in CALL
and RET alone (R28), `ST` in `FX18` alone (R32), memory by one write inside it at `I`, and `RUN` by `FX0A` alone. -/
structure Completes (i : Instr) (s t : State) : Prop where
  pc : t.pc = pcAfter i s
  stack : (touchesStack i = false ∧ t.stack = s.stack ∧ t.sp = s.sp)
    ∨ (i = .ret ∧ t.stack = s.stack ∧ t.sp.val + 1 = s.sp.val)
    ∨ ∃ nnn, i = .call nnn ∧ ∃ h : s.sp.val < 16, t.stack = s.stack.set s.sp.val s.pc h ∧ t.sp.val = s.sp.val + 1
  run : t.run = s.run ∨ ∃ x, t.run = .waitPress x := by exact .inl rfl
  st : t.st = s.st ∨ ∃ x, i = .ldStVx x := by exact .inl rfl
  mem : t.mem = s.mem
    ∨ ∃ bytes, s.i.toNat + bytes.length ≤ 4096
        ∧ t.mem = Memory.writeAll s.cfg.font s.mem s.i.toNat bytes := by exact .inl rfl
  ir : t.ir = s.ir := by rfl
  fault : t.fault = s.fault := by rfl
  keys : t.keys = s.keys := by rfl
  timerEn : t.timerEn = s.timerEn := by rfl
  cfg : t.cfg = s.cfg := by rfl
  inputs : t.inputs = s.inputs := by rfl

section
variable {i : Instr} {s : State} (hi : touchesStack i = false)
include hi

/-- An update of registers, `I`, `DT`, the screen or the count of draws, with `PC` left as the fetch put it. -/
theorem Completes.of_data (v : Vector Byte 16) (idx : Word) (dt : Byte) (fb : FrameBuffer) (dirty : Bool) (draws : Nat)
    (hpc : pcAfter i s = s.pc) :
    Completes i s { s with v := v, i := idx, dt := dt, fb := fb, fbDirty := dirty, draws := draws } where
  pc := hpc.symm
  stack := .inl ⟨hi, rfl, rfl⟩

/-- A drawn screen with the collision flag in a register (R172). -/
theorem Completes.of_draw (fb : FrameBuffer) (x : Reg) (b : Byte) (hpc : pcAfter i s = s.pc) :
    Completes i s ((s.setScreen fb).setReg x b) := .of_data hi _ _ _ _ _ _ hpc

/-- A register range loaded from memory, with whatever `I` the instruction leaves (R165). -/
theorem Completes.of_loadRange (x : Reg) (bytes : List Byte) (idx : Word) (hpc : pcAfter i s = s.pc) :
    Completes i s ((loadRange s x bytes).setI idx) := by
  rw [loadRange]
  exact .of_data hi _ _ _ _ _ _ hpc

/-- A write inside the memory at `I`, with whatever `I` the instruction leaves (R163, R164). -/
theorem Completes.of_store {bytes : List Byte} (idx : Word) (hle : s.i.toNat + bytes.length ≤ 4096)
    (hpc : pcAfter i s = s.pc) :
    Completes i s { s with mem := Memory.writeAll s.cfg.font s.mem s.i.toNat bytes, i := idx } where
  pc := hpc.symm
  stack := .inl ⟨hi, rfl, rfl⟩
  mem := .inr ⟨bytes, hle, rfl⟩

/-- A jump or skip to the `PC` of R25's table. -/
theorem Completes.of_setPc {w : Word} (hpc : w = pcAfter i s) : Completes i s (s.setPc w) where
  pc := hpc
  stack := .inl ⟨hi, rfl, rfl⟩

/-- A conditional skip of R25's table. -/
theorem Completes.of_skipIf {cond : Bool} (hpc : pcAfter i s = if cond then s.pc + 2 else s.pc) :
    Completes i s (s.skipIf cond) := by
  rw [State.skipIf_eq]
  exact .of_setPc hi hpc.symm

end

theorem zextAddr_eq_ofNat (nnn : Addr) : zextAddr nnn = BitVec.ofNat 16 nnn.toNat := by
  apply BitVec.eq_of_toNat_eq
  rw [zextAddr_toNat, BitVec.toNat_ofNat]; omega

theorem jumpV0Target_eq_ofNat (s : State) (nnn : Addr) :
    jumpV0Target s nnn = BitVec.ofNat 16 ((s.reg 0).toNat + nnn.toNat) := by
  apply BitVec.eq_of_toNat_eq
  rw [jumpV0Target_toNat, BitVec.toNat_ofNat]; omega

/-- R25's row of RET: the most recent entry (R30). -/
theorem pcAfter_ret (s : State) : pcAfter .ret s = s.stack[s.sp.val - 1]'(by omega) := by
  have hidx : s.sp.val - 1 < 16 := by omega
  simp [pcAfter, List.getD_eq_getElem?_getD, hidx]

/-- Everything an instruction can do: it raises a fault, or it completes (R202, R25, R28). -/
theorem exec_cases {i : Instr} {s t : State} (h : exec i s = .next t) :
    (∃ e, t = raiseInstr e s) ∨ Completes i s t := by
  cases i with
  | cls | ldImm x nn | addImm x nn | ldReg x y | addReg x y | sub x y | subn x y | ldI nnn | ldVxDt x | ldDtVx x
  | addIVx x | sys nnn | rnd x nn | ldFVx x =>
    cases h; exact .inr (.of_data rfl _ _ _ _ _ _ rfl)
  | orReg x y | andReg x y | xorReg x y =>
    cases h; rw [writeLogicResult_frame]; exact .inr (.of_data rfl _ _ _ _ _ _ rfl)
  | shr x y | shl x y =>
    cases h; rw [writeFlagThenResult_frame]; exact .inr (.of_data rfl _ _ _ _ _ _ rfl)
  | jp nnn => cases h; exact .inr (.of_setPc rfl (zextAddr_eq_ofNat nnn))
  | jpV0 nnn => cases h; exact .inr (.of_setPc rfl (jumpV0Target_eq_ofNat s nnn))
  | seImm x nn | seReg x y | sneImm x nn | sneReg x y => cases h; exact .inr (.of_skipIf rfl (by simp [pcAfter]))
  | ldStVx x => cases h; exact .inr { pc := rfl, stack := .inl ⟨rfl, rfl, rfl⟩, st := .inr ⟨x, rfl⟩ }
  | ldVxK x => cases h; exact .inr { pc := rfl, stack := .inl ⟨rfl, rfl, rfl⟩, run := .inr ⟨x, rfl⟩ }
  | ret =>
    obtain ⟨_, e⟩ | ⟨hsp, e⟩ := execRet_cases s <;> obtain rfl := Host.Outcome.next.inj (e.symm.trans h)
    · exact .inl ⟨_, rfl⟩
    · exact .inr { pc := (pcAfter_ret s).symm, stack := .inr (.inl ⟨rfl, rfl, Nat.succ_pred hsp⟩) }
  | call nnn =>
    obtain ⟨_, e⟩ | ⟨hsp, e⟩ := execCall_cases s nnn <;> obtain rfl := Host.Outcome.next.inj (e.symm.trans h)
    · exact .inl ⟨_, rfl⟩
    · exact .inr { pc := zextAddr_eq_ofNat nnn, stack := .inr (.inr ⟨nnn, rfl, hsp, rfl, rfl⟩) }
  | drw x y n =>
    obtain ⟨_, e⟩ | ⟨_, e⟩ := execDrw_cases s x y n <;> obtain rfl := Host.Outcome.next.inj (e.symm.trans h)
    · exact .inl ⟨_, rfl⟩
    · exact .inr (.of_draw rfl _ _ _ rfl)
  | skp x =>
    obtain ⟨down, hk, e⟩ | ⟨_, _, e⟩ := execSkp_cases s x <;> obtain rfl := Host.Outcome.next.inj (e.symm.trans h)
    · exact .inr (.of_setPc rfl (by simp [pcAfter, hk]))
    · exact .inl ⟨_, rfl⟩
  | sknp x =>
    obtain ⟨down, hk, e⟩ | ⟨_, _, e⟩ := execSknp_cases s x <;> obtain rfl := Host.Outcome.next.inj (e.symm.trans h)
    · exact .inr (.of_setPc rfl (by simp [pcAfter, hk]))
    · exact .inl ⟨_, rfl⟩
  | ldBVx x =>
    obtain ⟨_, e⟩ | ⟨hle, e⟩ := execLdBVx_cases s x <;> obtain rfl := Host.Outcome.next.inj (e.symm.trans h)
    · exact .inl ⟨_, rfl⟩
    · exact .inr (.of_store rfl s.i hle rfl)
  | ldMemVx x =>
    obtain ⟨_, e⟩ | ⟨hle, e⟩ := execLdMemVx_cases s x <;> obtain rfl := Host.Outcome.next.inj (e.symm.trans h)
    · exact .inl ⟨_, rfl⟩
    · exact .inr (.of_store rfl _ (by rwa [regRange_length]) rfl)
  | ldVxMem x =>
    obtain ⟨_, e⟩ | ⟨_, e⟩ := execLdVxMem_cases s x <;> obtain rfl := Host.Outcome.next.inj (e.symm.trans h)
    · exact .inl ⟨_, rfl⟩
    · exact .inr (.of_loadRange rfl _ _ _ rfl)

/-! ### What a step can do -/

/-- The effect of one step of any agent, from the state whose first event is used up. -/
inductive StepEffect (s : State) : State → Prop where
  /-- A fault of the fetch, the decoder or an instruction: it leaves `PC` at the faulting address and changes `IR`,
  `FAULT` and `RUN` alone (R202). -/
  | fault (ir : Word) (e : FaultCause) :
      StepEffect s { s with ir := ir, fault := some ⟨e, s.pc⟩, run := .faulted }
  /-- A fetched and decoded instruction that completes (R210). -/
  | completed (w : Word) (i : Instr) (t : State) (hrun : s.run = .running) (hpc : s.pc.toNat + 2 ≤ 4096)
      (hdec : decode s.cfg.ext w = .ok i) (hc : Completes i (s.fetched w) t) : StepEffect s t
  /-- A wait step of FX0A that moves on (R186). -/
  | waited (v : Vector Byte 16) (r : RunState) (hs : s.run ≠ .faulted) (hr : r ≠ .faulted) :
      StepEffect s { s with v := v, run := r }
  /-- A reset (R250). -/
  | booted (rom : List Byte) : StepEffect s (boot rom s)
  /-- Nothing but the timers, the keys, `timer_en` and the dirty flag: the events of the timer clock and the host, and the
  ticks that find nothing to do (R9). -/
  | outside (dt st : Byte) (keys : Vector Bool 16) (on dirty : Bool) (hst : st = s.st ∨ st = countDown s.st) :
      StepEffect s { s with dt := dt, st := st, keys := keys, timerEn := on, fbDirty := dirty }

theorem StepEffect.unchanged (s : State) : StepEffect s s := .outside s.dt s.st s.keys s.timerEn s.fbDirty (.inl rfl)

/-- A fault of an executing instruction, seen from before the fetch: `PC` is back at `pc0` (R24, R202). -/
theorem raiseInstr_fetched (e : FaultCause) (s : State) (w : Word) :
    raiseInstr e (s.fetched w) = { s with ir := w, fault := some ⟨e, s.pc⟩, run := .faulted } := by
  have hpc : (s.fetched w).instrAddr = s.pc := BitVec.add_sub_cancel s.pc 2
  rw [raiseInstr, hpc]; rfl

theorem runningStep_effect {s t : State} (hrun : s.run = .running) (h : runningStep s = .next t) : StepEffect s t := by
  obtain ⟨e, _, hr⟩ | ⟨w, _, _, hr⟩ | ⟨w, i, hf, hdec, hr⟩ := runningStep_cases s <;> rw [hr] at h
  · cases h; exact .fault s.ir e
  · cases h; exact .fault w _
  · obtain ⟨e, rfl⟩ | hc := exec_cases h
    · rw [raiseInstr_fetched]; exact .fault w e
    · obtain ⟨_, hf'⟩ | ⟨hpc, _⟩ := fetchWord_cases s
      · cases hf.symm.trans hf'
      · exact .completed w i t hrun hpc hdec hc

theorem waitPressStep_effect {x : Reg} {s : State} (hrun : s.run = .waitPress x) :
    StepEffect s (waitPressStep x s) := by
  unfold waitPressStep
  split
  · exact .waited s.v _ (by simp [hrun]) (by simp)
  · exact .unchanged s

theorem waitReleaseStep_effect {x : Reg} {k : Key} {s : State} (hrun : s.run = .waitRelease x k) :
    StepEffect s (waitReleaseStep x k s) := by
  unfold waitReleaseStep
  split
  · exact .unchanged s
  · exact .waited _ .running (by simp [hrun]) (by simp)

theorem executorStep_effect {s t : State} (h : executorStep s = .next t) : StepEffect s t := by
  unfold executorStep at h
  split at h
  case h_1 => cases h; exact .unchanged s
  case h_2 x hrun => cases h; exact waitPressStep_effect hrun
  case h_3 x k hrun => cases h; exact waitReleaseStep_effect hrun
  case h_4 hrun => exact runningStep_effect hrun h

theorem timerStep_effect (s : State) : StepEffect s (timerStep s) := by
  rw [timerStep_eq]
  refine .outside _ _ s.keys s.timerEn s.fbDirty ?_
  split
  · exact .inr rfl
  · exact .inl rfl

theorem handleInput_effect {e : Input} {s t : State} (h : handleInput e s = .next t) : StepEffect s t := by
  cases e with
  | instrTick => exact executorStep_effect h
  | timerTick => cases h; exact timerStep_effect s
  | reset rom => cases h; exact .booted rom
  | setKey k down => cases h; exact .outside s.dt s.st _ s.timerEn s.fbDirty (.inl rfl)
  | setTimerEn on => cases h; exact .outside s.dt s.st s.keys on s.fbDirty (.inl rfl)
  | fbAck => cases h; exact .outside s.dt s.st s.keys s.timerEn false (.inl rfl)
  | setInstrHz hz => cases h; exact .unchanged s

/-- Everything a step can do (R9, R210, R250): an event is used up and one of the effects above happens. -/
theorem step_effect {s t : State} (h : step s = .next t) : ∃ rest, StepEffect (s.setInputs rest) t := by
  cases hin : s.inputs with
  | nil =>
    rw [step_of_no_inputs hin] at h
    have hs : s.setInputs [] = s := by rw [← hin]; rfl
    exact ⟨[], by rw [hs]; exact executorStep_effect h⟩
  | cons e rest =>
    rw [step_of_inputs hin] at h
    exact ⟨rest, handleInput_effect h⟩

end Sys2Proof.Machine
end

section
/-! The state after reset and what every step keeps: silence, the canonical form of memory, and the invariants of R45
(`spec/10_state.md`). -/

namespace Sys2Proof.Machine

/-! ### The state after reset -/

/-- Settles O1: every field is a literal of `State.reset`, and an empty memory reads as the reset content. -/
theorem resetStateValues : Obligations.ResetStateValues := by
  refine ⟨fun y => ?_, rfl, rfl, rfl, fun j => ?_, rfl, rfl, rfl, rfl, rfl, blankScreen_pixel, rfl, fun a => ?_⟩
  · simp [State.reg, State.reset]
  · simp [State.reset]
  · exact unlistedByte_eq Config.defaultFont a

/-- Settles O58: nothing is listed in memory, no fault is latched and no stack entry is valid. -/
theorem resetMeetsInvariants : Obligations.ResetMeetsInvariants where
  mem := State.reset_memWf
  fault := by simp [State.FaultLatched, State.reset]
  pc := by decide
  stack := fun j hj => absurd hj (Nat.not_lt_zero _)

/-! ### The decoder's gate -/

theorem decodeOp0_enabled {ext : Config.ExtOps} {w : Word} {i : Instr} (h : decodeOp0 ext w = some i) :
    i.enabled ext = true := by
  unfold decodeOp0 at h
  split at h
  · cases h; rfl
  · split at h
    · cases h; rfl
    · split at h
      · cases h; assumption
      · cases h

theorem decodeOp8_enabled (ext : Config.ExtOps) {w : Word} {i : Instr} (h : decodeOp8 w = some i) :
    i.enabled ext = true := by
  unfold decodeOp8 at h
  split at h <;> cases h <;> rfl

theorem decodeOpE_enabled (ext : Config.ExtOps) {w : Word} {i : Instr} (h : decodeOpE w = some i) :
    i.enabled ext = true := by
  unfold decodeOpE at h
  split at h <;> cases h <;> rfl

theorem decodeOpF_enabled {ext : Config.ExtOps} {w : Word} {i : Instr} (h : decodeOpF ext w = some i) :
    i.enabled ext = true := by
  unfold decodeOpF at h
  split at h
  case h_8 | h_9 =>
    obtain ⟨hgate, hi⟩ := Option.ite_none_right_eq_some.mp h
    cases hi; exact hgate
  all_goals cases h <;> rfl

/-- By the high nibble: 0, 8, E and F have a sub-dispatch, 5, 9 and C a condition, and C's is the gate of RND. -/
theorem decodeRow_enabled {ext : Config.ExtOps} {w : Word} {i : Instr} (h : decodeRow ext w = some i) :
    i.enabled ext = true := by
  unfold decodeRow at h
  split at h
  case h_1 => exact decodeOp0_enabled h
  case h_9 => exact decodeOp8_enabled ext h
  case h_15 => exact decodeOpE_enabled ext h
  case h_16 => exact decodeOpF_enabled h
  case h_6 | h_10 =>
    obtain ⟨_, hi⟩ := Option.ite_none_right_eq_some.mp h
    cases hi; rfl
  case h_13 =>
    obtain ⟨hgate, hi⟩ := Option.ite_none_right_eq_some.mp h
    cases hi; exact hgate
  all_goals cases h <;> rfl

/-- The gate of R190: the decoder answers only instructions that `EXT_OPS` enables. -/
theorem decode_enabled {ext : Config.ExtOps} {w : Word} {i : Instr} (h : decode ext w = .ok i) :
    i.enabled ext = true := by
  unfold decode at h
  split at h
  case h_1 hrow => cases h; exact decodeRow_enabled hrow
  case h_2 => cases h

/-! ### Silence without `FX18` -/

theorem boot_st (rom : List Byte) (s : State) : (boot rom s).st = 0 := by
  obtain ⟨_, e⟩ | ⟨_, e⟩ := boot_cases rom s <;> rw [e] <;> rfl

theorem boot_cfg (rom : List Byte) (s : State) : (boot rom s).cfg = s.cfg := by
  obtain ⟨_, e⟩ | ⟨_, e⟩ := boot_cases rom s <;> rw [e] <;> rfl

theorem StepEffect.cfg_eq {s t : State} (h : StepEffect s t) : t.cfg = s.cfg := by
  cases h with
  | fault | waited | outside => rfl
  | completed w i t hrun hpc hdec hc => exact hc.cfg
  | booted rom => exact boot_cfg rom s

theorem StepEffect.st_eq_zero {s t : State} (h : StepEffect s t) (hgate : s.cfg.ext.ldSt = false) (hst : s.st = 0) :
    t.st = 0 := by
  cases h with
  | fault | waited => exact hst
  | completed w i t hrun hpc hdec hc =>
    obtain hkept | ⟨x, rfl⟩ := hc.st
    · exact hkept.trans hst
    · exact absurd (decode_enabled hdec) (by simp [Instr.enabled, hgate])
  | booted rom => exact boot_st rom s
  | outside dt st keys on dirty h =>
    obtain rfl | rfl := h
    · exact hst
    · rw [hst]; rfl

/-- Settles O55: of the effects of a step only `FX18` can make `ST` non-zero, and the decoder's gate shuts it out. -/
theorem soundStaysOffWithoutLdSt : Obligations.SoundStaysOffWithoutLdSt := by
  intro s t hgate hst hstep
  obtain ⟨rest, heff⟩ := step_effect hstep
  have hst' : t.st = 0 := heff.st_eq_zero hgate hst
  refine ⟨?_, hst', ?_⟩
  · rw [heff.cfg_eq]; exact hgate
  · rw [State.soundActive, hst']; rfl

/-! ### The canonical form of memory -/

theorem boot_memCanonical (rom : List Byte) (s : State) : (boot rom s).MemCanonical := by
  obtain ⟨_, e⟩ | ⟨hle, e⟩ := boot_cases rom s <;> rw [e]
  · rfl
  · exact Memory.writeAll_wf _ rom [] 0x200 (by simp only [Config.memSize]; omega) rfl

theorem Completes.memCanonical {i : Instr} {s t : State} (hc : Completes i s t) (h : s.MemCanonical) :
    t.MemCanonical := by
  rw [State.MemCanonical, hc.cfg]
  obtain hkept | ⟨bytes, hle, hmem⟩ := hc.mem
  · rw [hkept]; exact h
  · rw [hmem]; exact Memory.writeAll_wf _ bytes s.mem _ hle h

theorem StepEffect.memCanonical {s t : State} (heff : StepEffect s t) (h : s.MemCanonical) : t.MemCanonical := by
  cases heff with
  | fault | waited | outside => exact h
  | completed w i t hrun hpc hdec hc => exact hc.memCanonical h
  | booted rom => exact boot_memCanonical rom s

/-- Settles O56: the only writes to memory are an instruction's inside the 4096 bytes and the ROM's at reset. -/
theorem stepKeepsMemoryCanonical : Obligations.StepKeepsMemoryCanonical := by
  intro s t h hstep
  obtain ⟨rest, heff⟩ := step_effect hstep
  exact heff.memCanonical h

/-! ### The invariants of R45 -/

theorem boot_inv (rom : List Byte) (s : State) : (boot rom s).Inv := by
  have hmem : (boot rom s).MemCanonical := boot_memCanonical rom s
  obtain ⟨_, e⟩ | ⟨_, e⟩ := boot_cases rom s <;> rw [e] at hmem ⊢
  all_goals
    exact ⟨hmem, by simp [State.FaultLatched], by simp [State.PcBounded], fun j hj => absurd hj (Nat.not_lt_zero _)⟩

/-- `PC` after an instruction that completes (R26): a 12-bit target, `V[0] + NNN`, a return address, or at most 2 past the
advanced `PC`. -/
theorem Completes.pcBounded {i : Instr} {s t : State} (hc : Completes i s t) (hstack : s.StackBounded)
    (hpc : s.pc.toNat ≤ 4096) : t.PcBounded := by
  have hskip : (s.pc + 2).toNat ≤ 4098 := by bv_omega
  rw [State.PcBounded, hc.pc]
  cases i with
  | jp nnn | call nnn => simp only [pcAfter, BitVec.toNat_ofNat]; omega
  | jpV0 nnn => simp only [pcAfter, BitVec.toNat_ofNat]; omega
  | ret =>
    obtain ⟨hi, _⟩ | ⟨_, _, hsp⟩ | ⟨_, hi, _⟩ := hc.stack
    · cases hi
    · have hne : s.sp.val ≠ 0 := by omega
      have hentry := hstack ⟨s.sp.val - 1, by omega⟩ (Nat.sub_one_lt hne)
      rw [pcAfter_ret]
      exact hentry.2.trans (by decide)
    · cases hi
  | seImm | sneImm | seReg | sneReg | skp | sknp => simp only [pcAfter]; split <;> omega
  | _ => simp only [pcAfter]; omega

/-- A call pushes the advanced `PC`, every other instruction leaves the valid entries alone or drops one (R28 to R30). -/
theorem Completes.stackBounded {i : Instr} {s t : State} (hc : Completes i s t) (hstack : s.StackBounded)
    (hlo : 2 ≤ s.pc.toNat) (hhi : s.pc.toNat ≤ 4096) : t.StackBounded := by
  intro j hj
  obtain ⟨_, hst, hsp⟩ | ⟨_, hst, hsp⟩ | ⟨_, _, hlt, hst, hsp⟩ := hc.stack
  · rw [hsp] at hj; rw [hst]; exact hstack j hj
  · rw [hst]; exact hstack j (by omega)
  · rw [hst, Fin.getElem_fin, Vector.getElem_set]
    split
    · exact ⟨hlo, hhi⟩
    · exact hstack j (by omega)

theorem Completes.faultLatched {i : Instr} {s t : State} (hc : Completes i s t) (hrun : s.run = .running)
    (hlatch : s.FaultLatched) : t.FaultLatched := by
  have hnone : t.fault = none := by
    rw [hc.fault]; simpa [State.FaultLatched, hrun] using hlatch
  obtain hr | ⟨x, hr⟩ := hc.run
  · simp [State.FaultLatched, hr, hrun, hnone]
  · simp [State.FaultLatched, hr, hnone]

theorem StepEffect.inv {s t : State} (heff : StepEffect s t) (h : s.Inv) : t.Inv := by
  obtain ⟨hmem, hlatch, hpcb, hstack⟩ := h
  cases heff with
  | fault ir e => exact ⟨hmem, by simp [State.FaultLatched], hpcb, hstack⟩
  | completed w i t hrun hpc hdec hc =>
    have hnext : (s.fetched w).pc.toNat = s.pc.toNat + 2 := by rw [State.fetched_pc]; bv_omega
    exact ⟨hc.memCanonical hmem, hc.faultLatched hrun hlatch, hc.pcBounded hstack (by omega),
      hc.stackBounded hstack (by omega) (by omega)⟩
  | waited v r hs hr =>
    have hnone : s.fault = none := by simpa [State.FaultLatched, hs] using hlatch
    exact ⟨hmem, by simp [State.FaultLatched, hr, hnone], hpcb, hstack⟩
  | booted rom => exact boot_inv rom s
  | outside => exact ⟨hmem, hlatch, hpcb, hstack⟩

/-- Settles O57: using up the event changes no part the invariants read, and every effect of a step keeps them. -/
theorem stepKeepsInvariants : Obligations.StepKeepsInvariants := by
  intro s t h hstep
  obtain ⟨rest, heff⟩ := step_effect hstep
  exact heff.inv ⟨h.mem, h.fault, h.pc, h.stack⟩

end Sys2Proof.Machine
end

section
/-! The tables of `spec/10_state.md` over every instruction: the stack and `SP` (R28), `PC` (R25), VF (R40), and the two
fields no instruction reads (R42). -/

namespace Sys2Proof.Machine

/-! ### The stack and `PC` -/

/-- Settles O35: a fault leaves the stack and `SP` alone, and so does an instruction that completes, but CALL and RET. -/
theorem onlyCallAndReturnTouchStack : Obligations.OnlyCallAndReturnTouchStack := by
  intro i s t h hchanged
  obtain ⟨e, rfl⟩ | hc := exec_cases h
  · exact absurd hchanged (by simp)
  · obtain ⟨_, hst, hsp⟩ | ⟨hret, _⟩ | ⟨nnn, hcall, _⟩ := hc.stack
    · exact absurd hchanged (by simp [hst, hsp])
    · exact .inl hret
    · exact .inr ⟨nnn, hcall⟩

theorem Completes.not_faulted {i : Instr} {s t : State} (hc : Completes i s t) (hrun : s.run = .running) :
    t.run ≠ .faulted := by
  obtain hr | ⟨x, hr⟩ := hc.run <;> simp [hr, hrun]

/-- Settles O37: a fault puts `PC` back by 2, and an instruction that completes leaves R25's value. -/
theorem pcTableComplete : Obligations.PcTableComplete := by
  intro i s t hrun h
  obtain ⟨e, rfl⟩ | hc := exec_cases h
  · simp
  · rw [if_neg (hc.not_faulted hrun)]; exact hc.pc

/-! ### `IR` and `FB_DIRTY` -/

/-- The same state with another `IR` and another dirty flag. -/
def State.withIrDirty (s : State) (w : Word) (d : Bool) : State := { s with ir := w, fbDirty := d }

section
variable (s : State) (w : Word) (d : Bool)

@[simp] theorem withIrDirty_i : (s.withIrDirty w d).i = s.i := rfl
@[simp] theorem withIrDirty_fb : (s.withIrDirty w d).fb = s.fb := rfl
@[simp] theorem withIrDirty_cfg : (s.withIrDirty w d).cfg = s.cfg := rfl
@[simp] theorem withIrDirty_reg (x : Reg) : (s.withIrDirty w d).reg x = s.reg x := rfl
@[simp] theorem withIrDirty_byteAt (a : Nat) : (s.withIrDirty w d).byteAt a = s.byteAt a := rfl
@[simp] theorem withIrDirty_keyLevel (b : Byte) : keyLevel (s.withIrDirty w d) b = keyLevel s b := rfl
@[simp] theorem withIrDirty_indexAfterTransfer (x : Reg) :
    indexAfterTransfer (s.withIrDirty w d) x = indexAfterTransfer s x := rfl

@[simp] theorem withIrDirty_setReg (x : Reg) (b : Byte) :
    (s.withIrDirty w d).setReg x b = (s.setReg x b).withIrDirty w d := rfl

@[simp] theorem withIrDirty_setI (a : Word) : (s.withIrDirty w d).setI a = (s.setI a).withIrDirty w d := rfl

@[simp] theorem withIrDirty_setScreen (fb : FrameBuffer) :
    (s.withIrDirty w d).setScreen fb = (s.setScreen fb).withIrDirty w true := rfl

@[simp] theorem withIrDirty_loadRange (x : Reg) (bytes : List Byte) :
    loadRange (s.withIrDirty w d) x bytes = (loadRange s x bytes).withIrDirty w d := by
  simp only [loadRange, State.withIrDirty]

@[simp] theorem withIrDirty_skipIf (cond : Bool) :
    (s.withIrDirty w d).skipIf cond = (s.skipIf cond).withIrDirty w d := by
  cases cond <;> rfl

@[simp] theorem withIrDirty_writeLogicResult (x : Reg) (r : Byte) :
    writeLogicResult (s.withIrDirty w d) x r = (writeLogicResult s x r).withIrDirty w d := by
  rw [writeLogicResult, writeLogicResult, withIrDirty_cfg]
  cases s.cfg.logicVf <;> rfl

@[simp] theorem withIrDirty_writeFlagThenResult (x : Reg) (r f : Byte) :
    writeFlagThenResult (s.withIrDirty w d) x r f = (writeFlagThenResult s x r f).withIrDirty w d := by
  rw [writeFlagThenResult, writeFlagThenResult, withIrDirty_cfg]
  cases s.cfg.vfOrder <;> rfl

end

/-- Two runs that choose between the same two branches agree up to `IR` and the dirty flag when each branch does. -/
theorem withIrDirty_of_branches {A B : Prop} {o o' : Host.Outcome State Fault Refusal} {a b t : State} {w : Word}
    {da db : Bool} (hno : A → ¬B) (hs : (A ∧ o = .next a) ∨ (B ∧ o = .next b))
    (hs' : (A ∧ o' = .next (a.withIrDirty w da)) ∨ (B ∧ o' = .next (b.withIrDirty w db))) (h : o = .next t) :
    ∃ d', o' = .next (t.withIrDirty w d') := by
  obtain ⟨hA, e⟩ | ⟨hB, e⟩ := hs <;> obtain rfl := Host.Outcome.next.inj (e.symm.trans h)
  · exact ⟨da, (hs'.resolve_right fun c => hno hA c.1).2⟩
  · exact ⟨db, (hs'.resolve_left fun c => hno c.1 hB).2⟩

/-- What an instruction tests (a bound, `SP`, a key's level, a parameter) is the same in two states that differ in `IR` and
the dirty flag alone, so both take the same branch, and there the same update (R42). -/
theorem exec_withIrDirty {i : Instr} {s t : State} (w : Word) (d : Bool) (h : exec i s = .next t) :
    ∃ d', exec i (s.withIrDirty w d) = .next (t.withIrDirty w d') := by
  cases i with
  | cls => cases h; exact ⟨true, rfl⟩
  | ldImm | addImm | ldReg | addReg | sub | subn | ldI | ldVxDt | ldDtVx | addIVx | sys | rnd | ldFVx | jp | jpV0
  | ldStVx | ldVxK => cases h; exact ⟨d, rfl⟩
  | orReg | andReg | xorReg => cases h; exact ⟨d, congrArg Host.Outcome.next (withIrDirty_writeLogicResult s w d _ _)⟩
  | shr | shl => cases h; exact ⟨d, congrArg Host.Outcome.next (withIrDirty_writeFlagThenResult s w d _ _ _)⟩
  | seImm | sneImm | seReg | sneReg =>
    cases h
    simp only [exec, execSeImm, execSneImm, execSeReg, execSneReg, withIrDirty_reg, withIrDirty_skipIf]
    exact ⟨d, rfl⟩
  | skp x | sknp x =>
    simp only [exec, execSkp, execSknp, withIrDirty_reg, withIrDirty_keyLevel, withIrDirty_skipIf] at h ⊢
    cases hk : keyLevel s (s.reg x) <;> rw [hk] at h <;> cases h <;> exact ⟨d, rfl⟩
  | ret =>
    exact withIrDirty_of_branches (da := d) (db := d) (fun hA hB => hB hA) (execRet_cases s)
      (execRet_cases (s.withIrDirty w d)) h
  | call nnn =>
    obtain ⟨hsp, e⟩ | ⟨hsp, e⟩ := execCall_cases s nnn <;> obtain rfl := Host.Outcome.next.inj (e.symm.trans h)
    · exact ⟨d, ((execCall_cases (s.withIrDirty w d) nnn).resolve_right fun c => c.1.ne hsp).2⟩
    · exact ⟨d, ((execCall_cases (s.withIrDirty w d) nnn).resolve_left fun c => hsp.ne c.1).2⟩
  | ldBVx x =>
    exact withIrDirty_of_branches (da := d) (db := d) Nat.not_le_of_lt (execLdBVx_cases s x)
      (execLdBVx_cases (s.withIrDirty w d) x) h
  | ldMemVx x =>
    exact withIrDirty_of_branches (da := d) (db := d) Nat.not_le_of_lt (execLdMemVx_cases s x)
      (execLdMemVx_cases (s.withIrDirty w d) x) h
  | ldVxMem x =>
    have hs' := execLdVxMem_cases (s.withIrDirty w d) x
    simp only [withIrDirty_i, withIrDirty_byteAt, withIrDirty_indexAfterTransfer, withIrDirty_loadRange,
      withIrDirty_setI] at hs'
    exact withIrDirty_of_branches (da := d) Nat.not_le_of_lt (execLdVxMem_cases s x) hs' h
  | drw x y n =>
    have hs' := execDrw_cases (s.withIrDirty w d) x y n
    simp only [spriteRows, withIrDirty_i, withIrDirty_byteAt, withIrDirty_fb, withIrDirty_reg, withIrDirty_setScreen,
      withIrDirty_setReg] at hs'
    exact withIrDirty_of_branches (da := d) Nat.not_le_of_lt (execDrw_cases s x y n) hs' h

/-- Settles O53: by `exec_withIrDirty`, putting `IR` and the dirty flag back gives the first run's state. -/
theorem irAndDirtyFlagAreNeverRead : Obligations.IrAndDirtyFlagAreNeverRead := by
  intro i s t w d h
  obtain ⟨d', h'⟩ := exec_withIrDirty w d h
  exact ⟨t.withIrDirty w d', h', rfl⟩

end Sys2Proof.Machine
end

section
/-! VF after every instruction (`spec/10_state.md` R40). -/

namespace Sys2Proof.Machine

/-! ### The flags of R40's table -/

theorem flagByte_carry (a b : Byte) : flagByte (carry a b) = if 255 < a.toNat + b.toNat then 1 else 0 := by
  simp only [flagByte, carry, decide_eq_true_eq]
  exact if_congr Iff.rfl rfl rfl

theorem flagByte_noBorrow (a b : Byte) : flagByte (noBorrow a b) = if b.toNat ≤ a.toNat then 1 else 0 := by
  simp only [flagByte, noBorrow, decide_eq_true_eq]

theorem flagByte_shiftedOutRight (a : Byte) : flagByte (shiftedOutRight a) = BitVec.ofNat 8 (a.toNat % 2) := by
  apply BitVec.eq_of_toNat_eq
  rw [shiftedOutRight_toNat, BitVec.toNat_ofNat]; omega

theorem flagByte_shiftedOutLeft (a : Byte) : flagByte (shiftedOutLeft a) = BitVec.ofNat 8 (a.toNat / 128) := by
  apply BitVec.eq_of_toNat_eq
  rw [shiftedOutLeft_toNat, BitVec.toNat_ofNat]; omega

/-- The collision flag of R172 as R40 reads it off the two screens: some pixel went from on to off. -/
theorem spriteHits_iff_turnedOff (fb : FrameBuffer) (rows : List Byte) (x0 y0 : Nat) :
    spriteHits fb rows x0 y0 = true ↔
      ∃ (y : Fin 32) (x : Fin 64), fb[y][x] = true ∧ (drawSprite fb rows x0 y0)[y][x] = false := by
  simp only [spriteHits_iff, drawSprite_pixel]
  refine exists_congr fun y => exists_congr fun x => ?_
  cases fb[y][x] <;> simp

theorem shiftSource_vx {s : State} (h : s.cfg.shiftSrc = .vx) (x y : Reg) : shiftSource s x y = s.reg x := by
  rw [shiftSource, h]

/-! ### The table -/

/-- An instruction that writes its destination alone leaves VF unchanged when that is another register (R40). -/
theorem reg_setReg_other {s : State} {x : Reg} {b : Byte} (hx : some x ≠ some (15 : Reg)) :
    (s.setReg x b).reg 15 = s.reg 15 := by
  rw [State.reg_setReg, if_neg fun h => hx (by rw [h])]

theorem vfAfter_drw {x y : Reg} {n : Nibble} {s : State} (rows : List Byte) (x0 y0 : Nat) (b : Byte) :
    vfAfter (.drw x y n) s ((s.setScreen (drawSprite s.fb rows x0 y0)).setReg vf b) =
      flagByte (spriteHits s.fb rows x0 y0) := by
  simp only [vfAfter, State.setReg_pixel, State.pixel_setScreen, flagByte, spriteHits_iff_turnedOff]
  rfl

/-- Settles O38: each row of R40 by its own group, the flag rows through the lemmas of the two-write operations. -/
theorem vfTableComplete : Obligations.VfTableComplete := by
  intro i s t hrun hlogic hsrc hdest h hsafe
  cases i with
  | cls | jp | jpV0 | ldI | ldDtVx | addIVx | ldVxK | sys | ldStVx | ldFVx => cases h; rfl
  | seImm | sneImm | seReg | sneReg => cases h; rw [State.skipIf_eq]; rfl
  | ldImm | addImm | ldReg | ldVxDt | rnd => cases h; exact reg_setReg_other hdest
  | orReg | andReg | xorReg => cases h; rw [writeLogicResult_reg, if_pos ⟨rfl, hlogic⟩]; rfl
  | addReg => cases h; rw [writeResultThenFlag_reg, if_pos rfl, flagByte_carry]; rfl
  | sub | subn => cases h; rw [writeResultThenFlag_reg, if_pos rfl, flagByte_noBorrow]; rfl
  | shr x y =>
    cases h
    rw [writeFlagThenResult_reg, if_neg fun c => hdest (by rw [c.1]; rfl), if_pos rfl, shiftSource_vx hsrc,
      flagByte_shiftedOutRight]
    rfl
  | shl x y =>
    cases h
    rw [writeFlagThenResult_reg, if_neg fun c => hdest (by rw [c.1]; rfl), if_pos rfl, shiftSource_vx hsrc,
      flagByte_shiftedOutLeft]
    rfl
  | ret =>
    obtain ⟨_, e⟩ | ⟨_, e⟩ := execRet_cases s <;> obtain rfl := Host.Outcome.next.inj (e.symm.trans h)
    · exact absurd rfl hsafe
    · rfl
  | call nnn =>
    obtain ⟨_, e⟩ | ⟨_, e⟩ := execCall_cases s nnn <;> obtain rfl := Host.Outcome.next.inj (e.symm.trans h)
    · exact absurd rfl hsafe
    · rfl
  | skp x =>
    obtain ⟨_, _, e⟩ | ⟨_, _, e⟩ := execSkp_cases s x <;> obtain rfl := Host.Outcome.next.inj (e.symm.trans h)
    · rfl
    · exact absurd rfl hsafe
  | sknp x =>
    obtain ⟨_, _, e⟩ | ⟨_, _, e⟩ := execSknp_cases s x <;> obtain rfl := Host.Outcome.next.inj (e.symm.trans h)
    · rfl
    · exact absurd rfl hsafe
  | ldBVx x =>
    obtain ⟨_, e⟩ | ⟨_, e⟩ := execLdBVx_cases s x <;> obtain rfl := Host.Outcome.next.inj (e.symm.trans h)
    · exact absurd rfl hsafe
    · rfl
  | ldMemVx x =>
    obtain ⟨_, e⟩ | ⟨_, e⟩ := execLdMemVx_cases s x <;> obtain rfl := Host.Outcome.next.inj (e.symm.trans h)
    · exact absurd rfl hsafe
    · rfl
  | ldVxMem x =>
    have hx : ¬(15 : Reg).val ≤ x.val := fun hle => hdest (congrArg some (Fin.le_antisymm (Fin.le_last x) hle))
    obtain ⟨_, e⟩ | ⟨_, e⟩ := execLdVxMem_cases s x <;> obtain rfl := Host.Outcome.next.inj (e.symm.trans h)
    · exact absurd rfl hsafe
    · rw [State.setI_reg, State.reg_loadRange, if_neg hx]; rfl
  | drw x y n =>
    obtain ⟨_, e⟩ | ⟨_, e⟩ := execDrw_cases s x y n <;> obtain rfl := Host.Outcome.next.inj (e.symm.trans h)
    · exact absurd rfl hsafe
    · rw [vfAfter_drw, State.reg_setReg, if_pos rfl]

end Sys2Proof.Machine
end

section
/-! Memory (`spec/20_memory.md`): reading and fetching after a write (R75, R77), and which instructions write (R67). -/

namespace Sys2Proof.Machine

/-! ### Reading after a write -/

/-- A `MemWrite` that succeeds is a store inside the 4096 bytes (R63). -/
theorem memWrite_eq_ok {s t : State} {a : Nat} {bytes : List Byte} (h : memWrite s a bytes = .ok t) :
    a + bytes.length ≤ 4096 ∧ t = s.store a bytes := by
  obtain ⟨_, e⟩ | ⟨hle, e⟩ := memWrite_cases s a bytes <;> rw [e] at h <;> cases h
  exact ⟨hle, rfl⟩

/-- Byte by byte, the stored place reads as the stored bytes. -/
theorem memRead_store (s : State) {a : Nat} {bytes : List Byte} (hle : a + bytes.length ≤ 4096) :
    memRead (s.store a bytes) a bytes.length = .ok bytes := by
  obtain ⟨hlt, _⟩ | ⟨_, e⟩ := memRead_cases (s.store a bytes) a bytes.length
  · omega
  · rw [e, Except.ok.injEq]
    refine List.ext_getElem (by simp) fun j _ hj => ?_
    simp [hj]

/-- Settles O28: inside the memory the write is a store, and `memRead_store` reads it back. -/
theorem readAfterWriteReturnsBytes : Obligations.ReadAfterWriteReturnsBytes := by
  intro s a bytes hle
  have hok : memWrite s a bytes = .ok (s.store a bytes) :=
    ((memWrite_cases s a bytes).resolve_left fun c => Nat.not_lt.mpr hle c.1).2
  exact ⟨s.store a bytes, hok, memRead_store s hle⟩

/-- A fetch over two bytes just stored at `PC` (R65, R75). -/
theorem fetchWord_store {s : State} (b0 b1 : Byte) (hle : s.pc.toNat + 2 ≤ 4096) :
    fetchWord (s.store s.pc.toNat [b0, b1]) = .ok (wordOfBytes b0 b1) := by
  have hread : memRead (s.store s.pc.toNat [b0, b1]) (s.store s.pc.toNat [b0, b1]).pc.toNat 2 = .ok [b0, b1] :=
    memRead_store s hle
  rw [fetchWord, hread]; rfl

/-- Settles O29: a store leaves `PC` alone, so the fetch reads the two bytes, the first one high. -/
theorem storeIsSeenByNextFetch : Obligations.StoreIsSeenByNextFetch := by
  intro s t b0 b1 w hwrite hfetch
  obtain ⟨hle, rfl⟩ := memWrite_eq_ok hwrite
  rw [fetchWord_store b0 b1 hle] at hfetch
  cases hfetch
  exact wordOfBytes_toNat b0 b1

/-! ### Which instructions write -/

/-- An address where a store changes the byte lies inside the stored range (R63). -/
theorem mem_range_of_byteAt_store_ne {s : State} {a k : Nat} {bytes : List Byte}
    (h : (s.store a bytes).byteAt k ≠ s.byteAt k) : a ≤ k ∧ k < a + bytes.length := by
  by_contra hout
  exact h (by rw [State.byteAt_store, if_neg hout])

/-- Every instruction but FX33 and FX55 keeps every byte of memory, whether it completes or raises a fault (R67). -/
theorem exec_byteAt {i : Instr} {s t : State} (hbcd : ∀ x, i ≠ .ldBVx x) (hstore : ∀ x, i ≠ .ldMemVx x)
    (h : exec i s = .next t) (a : Nat) : t.byteAt a = s.byteAt a := by
  cases i with
  | ldBVx x => exact absurd rfl (hbcd x)
  | ldMemVx x => exact absurd rfl (hstore x)
  | orReg | andReg | xorReg => cases h; rw [writeLogicResult_frame]; rfl
  | shr | shl => cases h; rw [writeFlagThenResult_frame]; rfl
  | seImm | sneImm | seReg | sneReg => cases h; rw [State.skipIf_eq]; rfl
  | ret =>
    obtain ⟨_, e⟩ | ⟨_, e⟩ := execRet_cases s <;> obtain rfl := Host.Outcome.next.inj (e.symm.trans h) <;> rfl
  | call nnn =>
    obtain ⟨_, e⟩ | ⟨_, e⟩ := execCall_cases s nnn <;> obtain rfl := Host.Outcome.next.inj (e.symm.trans h) <;> rfl
  | drw x y n =>
    obtain ⟨_, e⟩ | ⟨_, e⟩ := execDrw_cases s x y n <;> obtain rfl := Host.Outcome.next.inj (e.symm.trans h)
    · rfl
    · rw [State.setReg_byteAt, State.setScreen_byteAt]
  | skp x =>
    obtain ⟨_, _, e⟩ | ⟨_, _, e⟩ := execSkp_cases s x <;> obtain rfl := Host.Outcome.next.inj (e.symm.trans h) <;> rfl
  | sknp x =>
    obtain ⟨_, _, e⟩ | ⟨_, _, e⟩ := execSknp_cases s x <;> obtain rfl := Host.Outcome.next.inj (e.symm.trans h) <;> rfl
  | ldVxMem x =>
    obtain ⟨_, e⟩ | ⟨_, e⟩ := execLdVxMem_cases s x <;> obtain rfl := Host.Outcome.next.inj (e.symm.trans h)
    · rfl
    · rw [State.setI_byteAt, loadRange_byteAt]
  | cls | jp | jpV0 | ldImm | addImm | ldReg | addReg | sub | subn | ldI | ldVxDt | ldDtVx | addIVx | ldVxK | sys | rnd
  | ldStVx | ldFVx => cases h; rfl

/-- A byte that FX33 changes is one of the three at `I` (R163). -/
theorem exec_ldBVx_range {x : Reg} {s t : State} {a : Nat} (h : exec (.ldBVx x) s = .next t)
    (hne : t.byteAt a ≠ s.byteAt a) : s.i.toNat ≤ a ∧ a < s.i.toNat + 3 ∧ s.i.toNat + 3 ≤ 4096 := by
  obtain ⟨_, e⟩ | ⟨hle, e⟩ := execLdBVx_cases s x <;> obtain rfl := Host.Outcome.next.inj (e.symm.trans h)
  · exact absurd rfl hne
  · obtain ⟨hlo, hhi⟩ := mem_range_of_byteAt_store_ne hne
    exact ⟨hlo, hhi, hle⟩

/-- A byte that FX55 changes is one of the `X + 1` at the `I` it began with (R164). -/
theorem exec_ldMemVx_range {x : Reg} {s t : State} {a : Nat} (h : exec (.ldMemVx x) s = .next t)
    (hne : t.byteAt a ≠ s.byteAt a) :
    s.i.toNat ≤ a ∧ a < s.i.toNat + x.val + 1 ∧ s.i.toNat + x.val + 1 ≤ 4096 := by
  obtain ⟨_, e⟩ | ⟨hle, e⟩ := execLdMemVx_cases s x <;> obtain rfl := Host.Outcome.next.inj (e.symm.trans h)
  · exact absurd rfl hne
  · rw [State.setI_byteAt] at hne
    obtain ⟨hlo, hhi⟩ := mem_range_of_byteAt_store_ne hne
    rw [regRange_length] at hhi
    exact ⟨hlo, hhi, hle⟩

/-- Settles O30: FX33 and FX55 change bytes of their range alone, and `exec_byteAt` shuts out every other instruction. -/
theorem onlyBcdAndStoreWriteMemory : Obligations.OnlyBcdAndStoreWriteMemory := by
  intro i s t a h hne
  by_cases hbcd : ∃ x, i = .ldBVx x
  · obtain ⟨x, rfl⟩ := hbcd
    obtain ⟨hlo, hhi, hle⟩ := exec_ldBVx_range h hne
    exact ⟨hlo, by omega, .inl ⟨x, rfl, hhi⟩⟩
  · by_cases hstore : ∃ x, i = .ldMemVx x
    · obtain ⟨x, rfl⟩ := hstore
      obtain ⟨hlo, hhi, hle⟩ := exec_ldMemVx_range h hne
      exact ⟨hlo, by omega, .inr ⟨x, rfl, hhi⟩⟩
    · exact absurd (exec_byteAt (not_exists.mp hbcd) (not_exists.mp hstore) h a) hne

end Sys2Proof.Machine
end

section
/-! The instruction word (`spec/30_encoding.md` R91 to R96): a word is put together again from its fields, a row's mask
and match fix the fields that are not operands, and SYS is well formed exactly on the words that are not CLS or RET. -/

namespace Sys2Proof

/-! ### A word from its fields -/

theorem formNNN_of_fields {w : Word} {op : Nibble} (hop : (opField w).toNat = op.toNat) :
    formNNN op (nnnField w) = w := by
  apply BitVec.eq_of_toNat_eq
  rw [formNNN_toNat, ← hop, opField_toNat, nnnField_toNat]; omega

theorem formXNN_of_fields {w : Word} {op : Nibble} {nn : Byte} (hop : (opField w).toNat = op.toNat)
    (hnn : (nnField w).toNat = nn.toNat) : formXNN op (xField w) nn = w := by
  apply BitVec.eq_of_toNat_eq
  rw [formXNN_toNat, ← hop, ← hnn, opField_toNat, xField_val, nnField_toNat]; omega

theorem formXYN_of_fields {w : Word} {op n : Nibble} (hop : (opField w).toNat = op.toNat)
    (hn : (nField w).toNat = n.toNat) : formXYN op (xField w) (yField w) n = w := by
  apply BitVec.eq_of_toNat_eq
  rw [formXYN_toNat, ← hop, ← hn, opField_toNat, xField_val, yField_val, nField_toNat]; omega

/-! ### A word from a mask and its match -/

theorem formNNN_of_mask {w p : Word} {op : Nibble} (h : w &&& 0xF000 = p) (hop : (opField p).toNat = op.toNat) :
    formNNN op (nnnField w) = w := by
  refine formNNN_of_fields ?_
  rw [← hop, ← h, maskOp_eq, opField_formNNN]

theorem formXNN_of_mask {w p : Word} {op : Nibble} (h : w &&& 0xF000 = p) (hop : (opField p).toNat = op.toNat) :
    formXNN op (xField w) (nnField w) = w := by
  refine formXNN_of_fields ?_ rfl
  rw [← hop, ← h, maskOp_eq, opField_formNNN]

theorem formXYN_of_mask {w p : Word} {op : Nibble} (h : w &&& 0xF000 = p) (hop : (opField p).toNat = op.toNat) :
    formXYN op (xField w) (yField w) (nField w) = w := by
  refine formXYN_of_fields ?_ rfl
  rw [← hop, ← h, maskOp_eq, opField_formNNN]

/-- Format `XY`: the mask fixes the sub-opcode too. -/
theorem formXY_of_mask {w p : Word} {op n : Nibble} (h : w &&& 0xF00F = p) (hop : (opField p).toNat = op.toNat)
    (hn : (nField p).toNat = n.toNat) : formXYN op (xField w) (yField w) n = w := by
  refine formXYN_of_fields ?_ ?_
  · rw [← hop, ← h, maskOpN_eq, opField_formXYN]
  · rw [← hn, ← h, maskOpN_eq, nField_formXYN]

/-- Format `X`: the mask fixes the low byte too. -/
theorem formX_of_mask {w p : Word} {op : Nibble} {nn : Byte} (h : w &&& 0xF0FF = p)
    (hop : (opField p).toNat = op.toNat) (hnn : (nnField p).toNat = nn.toNat) : formXNN op (xField w) nn = w := by
  refine formXNN_of_fields ?_ ?_
  · rw [← hop, ← h, maskOpNN_eq, opField_formXNN]
  · rw [← hnn, ← h, maskOpNN_eq, nnField_formXNN]

/-! ### Rows of the opcode map -/

/-- `PerInstr`'s law of each instruction, for all of them. -/
theorem encode_selects_row (i : Instr) : encode i &&& i.row.mask = i.row.pattern := by
  cases i with
  | cls => exact Laws.OpcodeRow.cls
  | ret => exact Laws.OpcodeRow.ret
  | jp nnn => exact Laws.OpcodeRow.jp nnn
  | call nnn => exact Laws.OpcodeRow.call nnn
  | seImm x nn => exact Laws.OpcodeRow.seImm x nn
  | sneImm x nn => exact Laws.OpcodeRow.sneImm x nn
  | seReg x y => exact Laws.OpcodeRow.seReg x y
  | sneReg x y => exact Laws.OpcodeRow.sneReg x y
  | ldImm x nn => exact Laws.OpcodeRow.ldImm x nn
  | addImm x nn => exact Laws.OpcodeRow.addImm x nn
  | ldReg x y => exact Laws.OpcodeRow.ldReg x y
  | orReg x y => exact Laws.OpcodeRow.orReg x y
  | andReg x y => exact Laws.OpcodeRow.andReg x y
  | xorReg x y => exact Laws.OpcodeRow.xorReg x y
  | addReg x y => exact Laws.OpcodeRow.addReg x y
  | sub x y => exact Laws.OpcodeRow.sub x y
  | shr x y => exact Laws.OpcodeRow.shr x y
  | subn x y => exact Laws.OpcodeRow.subn x y
  | shl x y => exact Laws.OpcodeRow.shl x y
  | ldI nnn => exact Laws.OpcodeRow.ldI nnn
  | jpV0 nnn => exact Laws.OpcodeRow.jpV0 nnn
  | drw x y n => exact Laws.OpcodeRow.drw x y n
  | skp x => exact Laws.OpcodeRow.skp x
  | sknp x => exact Laws.OpcodeRow.sknp x
  | ldVxDt x => exact Laws.OpcodeRow.ldVxDt x
  | ldDtVx x => exact Laws.OpcodeRow.ldDtVx x
  | addIVx x => exact Laws.OpcodeRow.addIVx x
  | ldVxK x => exact Laws.OpcodeRow.ldVxK x
  | ldBVx x => exact Laws.OpcodeRow.ldBVx x
  | ldMemVx x => exact Laws.OpcodeRow.ldMemVx x
  | ldVxMem x => exact Laws.OpcodeRow.ldVxMem x
  | sys nnn => exact Laws.OpcodeRow.sys nnn
  | rnd x nn => exact Laws.OpcodeRow.rnd x nn
  | ldStVx x => exact Laws.OpcodeRow.ldStVx x
  | ldFVx x => exact Laws.OpcodeRow.ldFVx x

/-- Well-formedness in terms of the word: row 32 leaves out the words of rows 1 and 2 (R96). -/
theorem wellFormed_iff (i : Instr) :
    i.wellFormed = true ↔ (i.row.number = 32 → encode i ≠ 0x00E0 ∧ encode i ≠ 0x00EE) := by
  cases i with
  | sys nnn =>
    have hinj (a : Addr) : encode (.sys nnn) = encode (.sys a) ↔ nnn = a :=
      ⟨fun h => by simpa [encode] using congrArg nnnField h, fun h => by rw [h]⟩
    have hcls : encode (.sys nnn) = 0x00E0 ↔ nnn = 0x0E0 := hinj 0x0E0
    have hret : encode (.sys nnn) = 0x00EE ↔ nnn = 0x0EE := hinj 0x0EE
    rw [Ne, Ne, hcls, hret]; simp [Instr.wellFormed, Instr.row]
  | _ => simp [Instr.wellFormed, Instr.row]

/-- The instruction of `i`'s row whose operands are the fields of `w` (R92). -/
def Instr.reread (w : Word) : Instr → Instr
  | .cls => .cls
  | .ret => .ret
  | .jp _ => .jp (nnnField w)
  | .call _ => .call (nnnField w)
  | .seImm _ _ => .seImm (xField w) (nnField w)
  | .sneImm _ _ => .sneImm (xField w) (nnField w)
  | .seReg _ _ => .seReg (xField w) (yField w)
  | .sneReg _ _ => .sneReg (xField w) (yField w)
  | .ldImm _ _ => .ldImm (xField w) (nnField w)
  | .addImm _ _ => .addImm (xField w) (nnField w)
  | .ldReg _ _ => .ldReg (xField w) (yField w)
  | .orReg _ _ => .orReg (xField w) (yField w)
  | .andReg _ _ => .andReg (xField w) (yField w)
  | .xorReg _ _ => .xorReg (xField w) (yField w)
  | .addReg _ _ => .addReg (xField w) (yField w)
  | .sub _ _ => .sub (xField w) (yField w)
  | .shr _ _ => .shr (xField w) (yField w)
  | .subn _ _ => .subn (xField w) (yField w)
  | .shl _ _ => .shl (xField w) (yField w)
  | .ldI _ => .ldI (nnnField w)
  | .jpV0 _ => .jpV0 (nnnField w)
  | .drw _ _ _ => .drw (xField w) (yField w) (nField w)
  | .skp _ => .skp (xField w)
  | .sknp _ => .sknp (xField w)
  | .ldVxDt _ => .ldVxDt (xField w)
  | .ldDtVx _ => .ldDtVx (xField w)
  | .addIVx _ => .addIVx (xField w)
  | .ldVxK _ => .ldVxK (xField w)
  | .ldBVx _ => .ldBVx (xField w)
  | .ldMemVx _ => .ldMemVx (xField w)
  | .ldVxMem _ => .ldVxMem (xField w)
  | .sys _ => .sys (nnnField w)
  | .rnd _ _ => .rnd (xField w) (nnField w)
  | .ldStVx _ => .ldStVx (xField w)
  | .ldFVx _ => .ldFVx (xField w)

@[simp] theorem Instr.reread_row (w : Word) (i : Instr) : (i.reread w).row = i.row := by
  cases i <;> rfl

@[simp] theorem Instr.reread_enabled (w : Word) (i : Instr) (ext : Config.ExtOps) :
    (i.reread w).enabled ext = i.enabled ext := by
  cases i <;> rfl

/-- A word that a row selects is the word of an instruction of that row, by the row's format (R91). -/
theorem encode_reread {w : Word} {i : Instr} (h : w &&& i.row.mask = i.row.pattern) : encode (i.reread w) = w := by
  cases i with
  | cls | ret =>
    rw [← BitVec.and_allOnes (x := w)]; exact h.symm
  | jp | call | ldI | jpV0 | sys => rw [Instr.row] at h; exact formNNN_of_mask h rfl
  | seImm | sneImm | ldImm | addImm | rnd => rw [Instr.row] at h; exact formXNN_of_mask h rfl
  | drw => rw [Instr.row] at h; exact formXYN_of_mask h rfl
  | seReg | sneReg | ldReg | orReg | andReg | xorReg | addReg | sub | shr | subn | shl =>
    rw [Instr.row] at h; exact formXY_of_mask h rfl rfl
  | skp | sknp | ldVxDt | ldDtVx | addIVx | ldVxK | ldBVx | ldMemVx | ldVxMem | ldStVx | ldFVx =>
    rw [Instr.row] at h; exact formX_of_mask h rfl rfl

end Sys2Proof
end

section
/-! The decoder and the encoder are inverse to each other, and what follows from it for the rows of the opcode map and
the illegal words (`spec/30_encoding.md` R94 to R98). -/

namespace Sys2Proof

theorem decode_ok_iff_row {ext : Config.ExtOps} {w : Word} {i : Instr} :
    decode ext w = .ok i ↔ decodeRow ext w = some i := by
  unfold decode; split <;> simp_all

theorem decode_error_iff_row {ext : Config.ExtOps} {w : Word} :
    decode ext w = .error (.unknownInstruction w) ↔ decodeRow ext w = none := by
  unfold decode; split <;> simp_all

/-! ### Decoding an encoded instruction -/

theorem decodeRow_encode {ext : Config.ExtOps} {i : Instr} (hwf : i.wellFormed = true) (hext : i.enabled ext = true) :
    decodeRow ext (encode i) = some i := by
  cases i with
  | cls | ret => rfl
  | sys nnn =>
    obtain ⟨hcls, hret⟩ := (wellFormed_iff _).mp hwf rfl
    have hsys : ext.sys = true := hext
    have hrow : decodeRow ext (encode (.sys nnn)) = decodeOp0 ext (encode (.sys nnn)) := by simp [encode, decodeRow]
    rw [hrow, decodeOp0, if_neg hcls, if_neg hret, if_pos hsys, encode, nnnField_formNNN]
  | rnd x nn =>
    have hrnd : ext.rnd = true := hext
    simp [encode, decodeRow, hrnd]
  | jp | call | ldI | jpV0 | seImm | sneImm | ldImm | addImm | drw | seReg | sneReg => simp [encode, decodeRow]
  | ldReg | orReg | andReg | xorReg | addReg | sub | shr | subn | shl => simp [encode, decodeRow, decodeOp8]
  | skp | sknp => simp [encode, decodeRow, decodeOpE]
  | ldVxDt | ldDtVx | addIVx | ldVxK | ldBVx | ldMemVx | ldVxMem => simp [encode, decodeRow, decodeOpF]
  | ldStVx x =>
    have hldSt : ext.ldSt = true := hext
    simp [encode, decodeRow, decodeOpF, hldSt]
  | ldFVx x =>
    have hldF : ext.ldF = true := hext
    simp [encode, decodeRow, decodeOpF, hldF]

/-- Settles O14, by the row of each instruction: the fields of its word choose the branch and give the operands back. -/
theorem decodeOfEncode : Obligations.DecodeOfEncode :=
  fun _ _ hwf hext => decode_ok_iff_row.mpr (decodeRow_encode hwf hext)

/-- Settles O13: six of the words are encodings of the instructions named, and no row of high nibble 0 has `0x01E0`. -/
theorem knownWordsDecode : Obligations.KnownWordsDecode :=
  ⟨decodeOfEncode _ (.jp 0x228) rfl rfl, decodeOfEncode _ (.addReg 3 10) rfl rfl, decodeOfEncode _ (.drw 0 1 5) rfl rfl,
    decodeOfEncode _ (.ldVxMem 2) rfl rfl, decodeOfEncode _ (.sknp 4) rfl rfl, decodeOfEncode _ (.rnd 3 0x0F) rfl rfl,
    rfl⟩

/-! ### Encoding a decoded word -/

theorem encode_of_decodeOp0 {ext : Config.ExtOps} {w : Word} {i : Instr} (hop : (opField w).toNat = 0x0)
    (h : decodeOp0 ext w = some i) : encode i = w ∧ i.wellFormed = true := by
  unfold decodeOp0 at h
  split at h
  case isTrue hcls => cases h; exact ⟨hcls.symm, rfl⟩
  case isFalse hcls =>
    split at h
    case isTrue hret => cases h; exact ⟨hret.symm, rfl⟩
    case isFalse hret =>
      obtain ⟨_, hi⟩ := Option.ite_none_right_eq_some.mp h
      cases hi
      have hw : encode (.sys (nnnField w)) = w := formNNN_of_fields hop
      refine ⟨hw, (wellFormed_iff _).mpr fun _ => ?_⟩
      rw [hw]; exact ⟨hcls, hret⟩

theorem encode_of_decodeOp8 {w : Word} {i : Instr} (hop : (opField w).toNat = 0x8) (h : decodeOp8 w = some i) :
    encode i = w ∧ i.wellFormed = true := by
  unfold decodeOp8 at h
  split at h <;> cases h
  all_goals exact ⟨formXYN_of_fields hop ‹_›, rfl⟩

theorem encode_of_decodeOpE {w : Word} {i : Instr} (hop : (opField w).toNat = 0xE) (h : decodeOpE w = some i) :
    encode i = w ∧ i.wellFormed = true := by
  unfold decodeOpE at h
  split at h <;> cases h
  all_goals exact ⟨formXNN_of_fields hop ‹_›, rfl⟩

theorem encode_of_decodeOpF {ext : Config.ExtOps} {w : Word} {i : Instr} (hop : (opField w).toNat = 0xF)
    (h : decodeOpF ext w = some i) : encode i = w ∧ i.wellFormed = true := by
  unfold decodeOpF at h
  split at h
  case h_8 hnn | h_9 hnn =>
    obtain ⟨_, hi⟩ := Option.ite_none_right_eq_some.mp h
    cases hi; exact ⟨formXNN_of_fields hop hnn, rfl⟩
  all_goals cases h
  all_goals exact ⟨formXNN_of_fields hop ‹_›, rfl⟩

/-- By the high nibble, as the decoder dispatches (R94): no bit of an accepted word is outside the fields that the row
fixes or hands on as operands. -/
theorem encode_of_decodeRow {ext : Config.ExtOps} {w : Word} {i : Instr} (h : decodeRow ext w = some i) :
    encode i = w ∧ i.wellFormed = true := by
  unfold decodeRow at h
  split at h
  case h_1 hop => exact encode_of_decodeOp0 hop h
  case h_9 hop => exact encode_of_decodeOp8 hop h
  case h_15 hop => exact encode_of_decodeOpE hop h
  case h_16 hop => exact encode_of_decodeOpF hop h
  case h_2 hop | h_3 hop | h_11 hop | h_12 hop => cases h; exact ⟨formNNN_of_fields hop, rfl⟩
  case h_4 hop | h_5 hop | h_7 hop | h_8 hop => cases h; exact ⟨formXNN_of_fields hop rfl, rfl⟩
  case h_14 hop => cases h; exact ⟨formXYN_of_fields hop rfl, rfl⟩
  case h_6 hop | h_10 hop =>
    obtain ⟨hn, hi⟩ := Option.ite_none_right_eq_some.mp h
    cases hi; exact ⟨formXYN_of_fields hop (congrArg BitVec.toNat hn), rfl⟩
  case h_13 hop =>
    obtain ⟨_, hi⟩ := Option.ite_none_right_eq_some.mp h
    cases hi; exact ⟨formXNN_of_fields hop rfl, rfl⟩
  case h_17 => cases h

/-- Settles O15, by the decoder's dispatch and its gate. -/
theorem encodeOfDecode : Obligations.EncodeOfDecode := by
  intro ext w i h
  obtain ⟨hw, hwf⟩ := encode_of_decodeRow (decode_ok_iff_row.mp h)
  exact ⟨hw, hwf, Machine.decode_enabled h⟩

/-! ### The rows of the opcode map -/

/-- The decoder, read through the encoder: the two round trips as one equivalence. -/
theorem decode_ok_iff {ext : Config.ExtOps} {w : Word} {i : Instr} :
    decode ext w = .ok i ↔ encode i = w ∧ i.wellFormed = true ∧ i.enabled ext = true := by
  constructor
  · exact encodeOfDecode ext w i
  · rintro ⟨rfl, hwf, hext⟩; exact decodeOfEncode ext i hwf hext

theorem decode_reread {ext : Config.ExtOps} {w : Word} {i : Instr} (hext : i.enabled ext = true)
    (hsel : w &&& i.row.mask = i.row.pattern) (hne : i.row.number = 32 → w ≠ 0x00E0 ∧ w ≠ 0x00EE) :
    decode ext w = .ok (i.reread w) := by
  have hw := encode_reread hsel
  refine decode_ok_iff.mpr ⟨hw, (wellFormed_iff _).mpr ?_, by rw [Instr.reread_enabled, hext]⟩
  rw [hw, Instr.reread_row]; exact hne

/-- Settles O17: a selected word decodes to the row's instruction with the word's own fields. So no word is selected by two
rows, since the decoder answers one instruction. -/
theorem opcodeRowsSelectAndDoNotOverlap : Obligations.OpcodeRowsSelectAndDoNotOverlap := by
  constructor
  · intro ext w i hext
    constructor
    · rintro ⟨j, hj, hrow⟩
      obtain ⟨rfl, hwf, _⟩ := decode_ok_iff.mp hj
      rw [← hrow]
      exact ⟨encode_selects_row j, (wellFormed_iff j).mp hwf⟩
    · rintro ⟨hsel, hne⟩
      exact ⟨i.reread w, decode_reread hext hsel hne, Instr.reread_row w i⟩
  · intro i j w hi hj hiw hjw
    have hall (k : Instr) : k.enabled Config.allExtOps = true := by cases k <;> rfl
    have hdi := decode_reread (hall i) hiw fun h => by omega
    have hdj := decode_reread (hall j) hjw fun h => by omega
    have heq : i.reread w = j.reread w := Except.ok.inj (hdi.symm.trans hdj)
    rw [← Instr.reread_row w i, heq, Instr.reread_row]

/-! ### The illegal words -/

theorem decodeOp0_eq_none_iff (w : Word) :
    decodeOp0 Config.noExtOps w = none ↔ w ≠ 0x00E0 ∧ w ≠ 0x00EE := by
  unfold decodeOp0
  split_ifs with hcls hret hsys
  · simp [hcls]
  · simp [hret]
  · cases hsys
  · exact ⟨fun _ => ⟨hcls, hret⟩, fun _ => rfl⟩

theorem nField_eq_zero_iff (w : Word) : nField w = 0#4 ↔ w.toNat % 16 = 0 := by
  rw [← nField_toNat]; exact BitVec.toNat_inj.symm

theorem decodeOp8_eq_none_iff (w : Word) :
    decodeOp8 w = none ↔ 8 ≤ w.toNat % 16 ∧ w.toNat % 16 ≠ 0xE := by
  unfold decodeOp8; rw [nField_toNat]
  split
  case h_10 => simp only [imp_false] at *; simp only [true_iff]; omega
  all_goals simp [*]

theorem decodeOpE_eq_none_iff (w : Word) :
    decodeOpE w = none ↔ w.toNat % 256 ≠ 0x9E ∧ w.toNat % 256 ≠ 0xA1 := by
  unfold decodeOpE; rw [nnField_toNat]
  split <;> simp_all

theorem decodeOpF_eq_none_iff (w : Word) :
    decodeOpF Config.noExtOps w = none ↔ w.toNat % 256 ∉ [0x07, 0x0A, 0x15, 0x1E, 0x33, 0x55, 0x65] := by
  unfold decodeOpF; rw [nnField_toNat]
  split <;> simp_all [Config.noExtOps]

/-- Settles O16, by the high nibble: 5 and 9 ask for a low nibble 0, nibble C is the gate of RND, and 0, 8, E and F have
a sub-dispatch each. -/
theorem illegalWordsComplete : Obligations.IllegalWordsComplete := by
  intro w
  rw [decode_error_iff_row]
  unfold decodeRow
  rw [opField_toNat]
  split
  case h_1 hop => simp [hop, decodeOp0_eq_none_iff]
  case h_9 hop => simp [hop, decodeOp8_eq_none_iff]
  case h_15 hop => simp [hop, decodeOpE_eq_none_iff]
  case h_16 hop => simp [hop, decodeOpF_eq_none_iff]
  case h_6 hop | h_10 hop => simp [hop, nField_eq_zero_iff]
  case h_13 hop => simp [hop, Config.noExtOps]
  case h_17 => simp only [imp_false] at *; omega
  case h_2 hop | h_3 hop | h_4 hop | h_5 hop | h_7 hop | h_8 hop | h_11 hop | h_12 hop | h_14 hop => simp [hop]

end Sys2Proof
end

section
/-! The control transfers (`spec/40_control_flow.md`): the jumps, CALL and RET on the call stack, and the register skips. -/

namespace Sys2Proof.Machine

/-! ### CALL and RET below and at the bounds of the stack -/

/-- CALL with room on the stack (R29, R122). -/
theorem exec_call_of_lt (nnn : Addr) {s : State} (h : s.sp.val < 16) :
    exec (.call nnn) s =
      .next { s with stack := s.stack.set s.sp.val s.pc h, sp := ⟨s.sp.val + 1, by omega⟩, pc := zextAddr nnn } := by
  obtain ⟨hfull, _⟩ | ⟨_, e⟩ := execCall_cases s nnn
  · exact absurd hfull h.ne
  · exact e

/-- CALL with a full stack (R29, R122). -/
theorem exec_call_of_full (nnn : Addr) {s : State} (h : s.sp.val = 16) :
    exec (.call nnn) s = .next (raiseInstr .stackOverflow s) :=
  ((execCall_cases s nnn).resolve_right fun ⟨hlt, _⟩ => hlt.ne h).2

/-- RET with an entry to pop, which is the one just below `SP` (R30, R120). -/
theorem exec_ret_of_succ {s : State} {j : Fin 16} (h : j.val + 1 = s.sp.val) :
    exec .ret s = .next { s with sp := j.castSucc, pc := s.stack[j] } := by
  obtain ⟨hzero, _⟩ | ⟨_, e⟩ := execRet_cases s
  · omega
  · have hj : s.sp.val - 1 = j.val := by omega
    simp only [hj] at e
    exact e

/-- RET with an empty stack (R30, R120). -/
theorem exec_ret_of_empty {s : State} (h : s.sp.val = 0) : exec .ret s = .next (raiseInstr .stackUnderflow s) :=
  ((execRet_cases s).resolve_right fun c => c.1 h).2

/-! ### A skip on a condition -/

/-- A skip whose Boolean test decides `p` adds 2 to the advanced `PC` exactly when `p` holds (R25). -/
theorem State.skipIf_of_iff (s : State) {cond : Bool} {p : Prop} [Decidable p] (h : cond = true ↔ p) :
    s.skipIf cond = { s with pc := if p then s.pc + 2 else s.pc } := by
  simp only [State.skipIf_eq, h, State.setPc]

/-! ### The obligations -/

/-- Settles O31: each jump is one update of `PC`, and neither target is too large for 16 bits. -/
theorem jumpTargets : Obligations.JumpTargets := fun nnn s =>
  ⟨⟨s.setPc (zextAddr nnn), rfl, rfl, zextAddr_toNat nnn, fun _ => rfl⟩,
    ⟨s.setPc (jumpV0Target s nnn), rfl, rfl, jumpV0Target_toNat s nnn, fun _ => rfl⟩⟩

/-- Settles O32, by whether the stack has room. -/
theorem callPushesReturnAddress : Obligations.CallPushesReturnAddress := by
  intro nnn s
  refine ⟨fun hlt => ⟨_, exec_call_of_lt nnn hlt, rfl, zextAddr_toNat nnn, rfl, fun j => ?_, fun _ => rfl⟩,
    exec_call_of_full nnn⟩
  rw [Fin.getElem_fin, Vector.getElem_set]
  exact if_congr eq_comm rfl rfl

/-- Settles O33, by whether the stack has an entry. -/
theorem returnPopsIntoPc : Obligations.ReturnPopsIntoPc := fun _ =>
  ⟨fun _ hj => ⟨_, exec_ret_of_succ hj, rfl, rfl, rfl, fun _ => rfl⟩, exec_ret_of_empty⟩

/-- Settles O34: CALL leaves `SP` one above the entry it wrote, so that entry is the one RET pops. -/
theorem callThenReturnRestoresPc : Obligations.CallThenReturnRestoresPc := by
  intro nnn s t p hlt hcall
  obtain rfl := Host.Outcome.next.inj ((exec_call_of_lt nnn hlt).symm.trans hcall)
  exact ⟨_, exec_ret_of_succ (j := ⟨s.sp.val, hlt⟩) rfl, Vector.getElem_set_self _, rfl, rfl, rfl⟩

/-- Settles O36: each skip is `skipIf` of a Boolean test that decides its condition. -/
theorem registerSkips : Obligations.RegisterSkips := by
  intro x y nn s
  exact ⟨congrArg Host.Outcome.next (s.skipIf_of_iff beq_iff_eq),
    congrArg Host.Outcome.next (s.skipIf_of_iff bne_iff_ne),
    congrArg Host.Outcome.next (s.skipIf_of_iff beq_iff_eq),
    congrArg Host.Outcome.next (s.skipIf_of_iff bne_iff_ne)⟩

end Sys2Proof.Machine
end

section
/-! The loads, the arithmetic and the logic instructions (`spec/41_load_alu.md`): what each leaves in every register, and
that it writes the register file alone. -/

namespace Sys2Proof.Machine

/-! ### Instructions that write the register file alone -/

/-- An instruction that completes and writes the register file alone changes no memory byte: the shape shared by the
obligations of this family. -/
theorem completes_of_registers_alone {i : Instr} {s t : State} {p : State → Prop} (hexec : exec i s = .next t)
    (hframe : t = { s with v := t.v }) (hp : p t) :
    ∃ t, exec i s = .next t ∧ t = { s with v := t.v } ∧ p t ∧ ∀ a, t.byteAt a = s.byteAt a :=
  ⟨t, hexec, hframe, hp, fun a => by rw [hframe]; rfl⟩

theorem setReg_frame (s : State) (x : Reg) (b : Byte) : s.setReg x b = { s with v := (s.setReg x b).v } := rfl

/-! ### Registers and the shift source as numbers (R143) -/

section
variable (s : State) (x z : Reg) {r f : Byte} {n m : Nat}

theorem setReg_reg_toNat (hr : r.toNat = n) :
    ((s.setReg x r).reg z).toNat = if z = x then n else (s.reg z).toNat := by
  rw [State.reg_setReg, apply_ite BitVec.toNat, hr]

theorem writeResultThenFlag_reg_toNat (hr : r.toNat = n) (hf : f.toNat = m) :
    ((writeResultThenFlag s x r f).reg z).toNat = if z = 15 then m else if z = x then n else (s.reg z).toNat := by
  rw [writeResultThenFlag_reg, apply_ite BitVec.toNat, apply_ite BitVec.toNat, hr, hf]

theorem writeFlagThenResult_reg_toNat (hr : r.toNat = n) (hf : f.toNat = m) :
    ((writeFlagThenResult s x r f).reg z).toNat =
      if z = x ∧ (x = 15 → s.cfg.vfOrder = .tableOrder) then n else if z = 15 then m else (s.reg z).toNat := by
  rw [writeFlagThenResult_reg, apply_ite BitVec.toNat, apply_ite BitVec.toNat, hr, hf]

end

/-- `Q_SHIFT_SRC` (R7) as a condition. -/
theorem shiftSource_eq_ite (s : State) (x y : Reg) :
    shiftSource s x y = if s.cfg.shiftSrc = .vx then s.reg x else s.reg y := by
  unfold shiftSource
  cases s.cfg.shiftSrc <;> rfl

/-! ### The obligations -/

/-- Settles O18: each of the three is one register write, of `NN`, the sum modulo 256, and `V[Y]`. -/
theorem loadsAndAddImmediateResults : Obligations.LoadsAndAddImmediateResults := fun x y nn s =>
  ⟨completes_of_registers_alone rfl (setReg_frame s x _) fun z => State.reg_setReg s x z nn,
    completes_of_registers_alone rfl (setReg_frame s x _) fun z => setReg_reg_toNat s x z (BitVec.toNat_add _ _),
    completes_of_registers_alone rfl (setReg_frame s x _) fun z => State.reg_setReg s x z (s.reg y)⟩

/-- Settles O19: the three operations share `writeLogicResult`, which decides VF by `Q_LOGIC_VF`. -/
theorem logicResults : Obligations.LogicResults := by
  intro i x y r s hop
  have hexec : exec i s = .next (writeLogicResult s x r) := by
    obtain ⟨rfl, rfl⟩ | ⟨rfl, rfl⟩ | ⟨rfl, rfl⟩ := hop <;> rfl
  exact completes_of_registers_alone hexec (writeLogicResult_frame s x r) fun z => writeLogicResult_reg s x z r

/-- Settles O20: the flag is the later write (R140), so it stays in VF also with `X` = 15. -/
theorem addSubResultsAndFlags : Obligations.AddSubResultsAndFlags := fun x _ s =>
  ⟨completes_of_registers_alone rfl (writeResultThenFlag_frame s x _ _) fun z =>
      writeResultThenFlag_reg_toNat s x z (BitVec.toNat_add _ _) (carry_toNat _ _),
    completes_of_registers_alone rfl (writeResultThenFlag_frame s x _ _) fun z =>
      writeResultThenFlag_reg_toNat s x z (sub_toNat _ _) (noBorrow_toNat _ _),
    completes_of_registers_alone rfl (writeResultThenFlag_frame s x _ _) fun z =>
      writeResultThenFlag_reg_toNat s x z (sub_toNat _ _) (noBorrow_toNat _ _)⟩

/-- Settles O21: both shifts read the source that `Q_SHIFT_SRC` selects, and `writeFlagThenResult` resolves the two
writes by `VF_ORDER` (R140). -/
theorem shiftResultsAndFlags : Obligations.ShiftResultsAndFlags := by
  intro x y a s ha
  obtain rfl : a = shiftSource s x y := ha.trans (shiftSource_eq_ite s x y).symm
  exact ⟨completes_of_registers_alone rfl (writeFlagThenResult_frame s x _ _) fun z =>
      writeFlagThenResult_reg_toNat s x z (shiftRight_toNat _) (shiftedOutRight_toNat _),
    completes_of_registers_alone rfl (writeFlagThenResult_frame s x _ _) fun z =>
      writeFlagThenResult_reg_toNat s x z (shiftLeft_toNat _) (shiftedOutLeft_toNat _)⟩

end Sys2Proof.Machine
end

section
/-! The index register and the memory transfers (`spec/42_index_memory.md`): each transfer inside the memory and past its
end, the bytes and registers it leaves, and the round trip of FX55 and FX65. -/

namespace Sys2Proof.Machine

/-! ### The transfers inside the memory and past its end -/

section
variable {s : State} {x : Reg}

/-- FX33 inside the memory (R163). -/
theorem exec_ldBVx_of_le (h : s.i.toNat + 3 ≤ 4096) :
    exec (.ldBVx x) s = .next (s.store s.i.toNat (decimalDigits (s.reg x))) :=
  ((execLdBVx_cases s x).resolve_left fun c => Nat.not_lt.mpr h c.1).2

/-- FX33 past the memory (R163). -/
theorem exec_ldBVx_of_gt (h : 4096 < s.i.toNat + 3) :
    exec (.ldBVx x) s = .next (raiseInstr (.addressingError s.i.toNat 3) s) :=
  ((execLdBVx_cases s x).resolve_right fun c => Nat.not_le.mpr h c.1).2

/-- FX55 inside the memory (R164). -/
theorem exec_ldMemVx_of_le (h : s.i.toNat + x.val + 1 ≤ 4096) :
    exec (.ldMemVx x) s = .next ((s.store s.i.toNat (regRange s x)).setI (indexAfterTransfer s x)) :=
  ((execLdMemVx_cases s x).resolve_left fun c => Nat.not_lt.mpr h c.1).2

/-- FX55 past the memory (R164). -/
theorem exec_ldMemVx_of_gt (h : 4096 < s.i.toNat + x.val + 1) :
    exec (.ldMemVx x) s = .next (raiseInstr (.addressingError s.i.toNat (x.val + 1)) s) :=
  ((execLdMemVx_cases s x).resolve_right fun c => Nat.not_le.mpr h c.1).2

/-- FX65 inside the memory (R165). -/
theorem exec_ldVxMem_of_le (h : s.i.toNat + x.val + 1 ≤ 4096) :
    exec (.ldVxMem x) s =
      .next ((loadRange s x ((List.range (x.val + 1)).map fun j => s.byteAt (s.i.toNat + j))).setI
        (indexAfterTransfer s x)) :=
  ((execLdVxMem_cases s x).resolve_left fun c => Nat.not_lt.mpr h c.1).2

/-- FX65 past the memory (R165). -/
theorem exec_ldVxMem_of_gt (h : 4096 < s.i.toNat + x.val + 1) :
    exec (.ldVxMem x) s = .next (raiseInstr (.addressingError s.i.toNat (x.val + 1)) s) :=
  ((execLdVxMem_cases s x).resolve_right fun c => Nat.not_le.mpr h c.1).2

end

/-! ### Bytes and registers after a transfer -/

section
variable (s : State) (a : Nat) (x j : Reg)

/-- Byte `k` of the stored range is byte `k` of the sequence (R63). -/
theorem State.byteAt_store_add {bytes : List Byte} {k : Nat} (hk : k < bytes.length) :
    (s.store a bytes).byteAt (a + k) = bytes.getD k 0 := by
  rw [State.byteAt_store, if_pos ⟨Nat.le_add_right a k, Nat.add_lt_add_left hk a⟩, Nat.add_sub_cancel_left]

/-- A byte outside the stored range stays (R63). -/
theorem State.byteAt_store_outside {bytes : List Byte} {k : Nat} (hk : k < a ∨ a + bytes.length ≤ k) :
    (s.store a bytes).byteAt k = s.byteAt k := by
  rw [State.byteAt_store, if_neg (by omega)]

/-- No digit is too large for its byte (R163). -/
theorem decimalDigits_toNat (b : Byte) :
    (decimalDigits b).map BitVec.toNat = [b.toNat / 100, b.toNat / 10 % 10, b.toNat % 10] := by
  have hundreds : b.toNat / 100 < 2 ^ 8 := by omega
  have tens : b.toNat / 10 % 10 < 2 ^ 8 := by omega
  have ones : b.toNat % 10 < 2 ^ 8 := by omega
  simp only [decimalDigits, List.map, BitVec.toNat_ofNat, Nat.mod_eq_of_lt hundreds, Nat.mod_eq_of_lt tens,
    Nat.mod_eq_of_lt ones]

/-- The three bytes FX33 stores, as numbers (R163). -/
theorem byteAt_store_decimalDigits_toNat (b : Byte) (k : Nat) (hk : k < 3) :
    ((s.store a (decimalDigits b)).byteAt (a + k)).toNat =
      [b.toNat / 100, b.toNat / 10 % 10, b.toNat % 10].getD k 0 := by
  rw [State.byteAt_store_add s a hk, ← decimalDigits_toNat]
  exact (List.getD_map _ 0 BitVec.toNat).symm

/-- The byte of `V[j]` in the range FX55 stores (R164). -/
theorem byteAt_store_regRange (hj : j ≤ x) : (s.store a (regRange s x)).byteAt (a + j.val) = s.reg j := by
  have hlen : j.val < (regRange s x).length := by rw [regRange_length]; exact Nat.lt_succ_of_le hj
  rw [State.byteAt_store_add s a hlen, regRange_getD s x j hj]

/-- The registers after loading the bytes that `f` gives (R165). -/
theorem reg_loadRange_map_range (f : Nat → Byte) :
    (loadRange s x ((List.range (x.val + 1)).map f)).reg j = if j ≤ x then f j.val else s.reg j := by
  rw [State.reg_loadRange]
  refine if_ctx_congr Iff.rfl (fun hj => ?_) fun _ => rfl
  have hlt : j.val < x.val + 1 := Nat.lt_succ_of_le hj
  simp [List.getD_eq_getElem?_getD, hlt]

end

/-! ### The obligations -/

/-- Settles O24, by whether the three bytes at `I` lie inside the memory. -/
theorem bcdStoreResult : Obligations.BcdStoreResult := by
  intro x s
  have digit := byteAt_store_decimalDigits_toNat s s.i.toNat (s.reg x)
  exact ⟨fun hle => ⟨_, exec_ldBVx_of_le hle, rfl, digit 0 (by decide), digit 1 (by decide), digit 2 (by decide),
      fun _ ha => State.byteAt_store_outside s s.i.toNat ha⟩,
    fun hgt => ⟨_, _, exec_ldBVx_of_gt hgt, rfl, rfl, fun _ => rfl⟩⟩

/-- Settles O25, by whether the `X + 1` bytes at `I` lie inside the memory. -/
theorem storeRegistersResult : Obligations.StoreRegistersResult := by
  intro x s
  refine ⟨fun hle => ⟨_, exec_ldMemVx_of_le hle, rfl, indexAfterTransfer_toNat s x hle, fun j hj => ?_, fun a ha => ?_⟩,
    fun hgt => ⟨_, _, exec_ldMemVx_of_gt hgt, rfl, rfl, fun _ => rfl⟩⟩
  · rw [State.setI_byteAt, byteAt_store_regRange s s.i.toNat x j hj]
  · rw [State.setI_byteAt, State.byteAt_store_outside s s.i.toNat (by rwa [regRange_length])]

/-- Settles O26, by whether the `X + 1` bytes at `I` lie inside the memory. -/
theorem loadRegistersResult : Obligations.LoadRegistersResult := by
  intro x s
  refine ⟨fun hle => ⟨_, exec_ldVxMem_of_le hle, ?_, indexAfterTransfer_toNat s x hle, fun j => ?_, fun a => ?_⟩,
    fun hgt => ⟨_, _, exec_ldVxMem_of_gt hgt, rfl, rfl, fun _ => rfl, fun _ => rfl⟩⟩
  · rw [loadRange]; rfl
  · rw [State.setI_reg, reg_loadRange_map_range]
  · rw [State.setI_byteAt, loadRange_byteAt]

/-- Settles O27: with `I` set back, FX65 reads the very bytes that FX55 stored, and both advance `I` alike. -/
theorem storeThenLoadRegistersRoundTrip : Obligations.StoreThenLoadRegistersRoundTrip := by
  intro x s t v hinc hle hstore
  obtain rfl := Host.Outcome.next.inj ((exec_ldMemVx_of_le hle).symm.trans hstore)
  refine ⟨_, exec_ldVxMem_of_le hle, fun j hj => ?_, ?_, rfl⟩
  · rw [State.setI_reg, reg_loadRange_map_range, if_pos hj]
    exact byteAt_store_regRange s s.i.toNat x j hj
  · rw [State.setI_i, indexAfterTransfer_toNat s x hle, if_pos hinc]

/-- Settles O22: one update of `I`, and `NNN` fits its 16 bits. -/
theorem loadIndexResult : Obligations.LoadIndexResult := fun nnn s =>
  ⟨s.setI (zextAddr nnn), rfl, rfl, zextAddr_toNat nnn, fun _ => rfl⟩

/-- Settles O23: one update of `I`, by a 16-bit sum. -/
theorem addIndexResult : Obligations.AddIndexResult := fun x s =>
  ⟨s.setI (s.i + zextByte (s.reg x)), rfl, rfl, by rw [State.setI_i, BitVec.toNat_add, zextByte_toNat], fun _ => rfl⟩

end Sys2Proof.Machine
end

section
/-! The display instructions (`spec/43_display.md`): CLS, and DXYN as the two nested loops of R172, inside the memory and
past its end, and drawn twice. -/

namespace Sys2Proof.Machine

/-! ### The nested loops of R172, one sprite bit at a time -/

/-- What holds at every step of a fold over `0 .. n - 1` holds at its end. -/
theorem foldl_range_induction {α : Type} {P : Nat → α → Prop} {f : α → Nat → α} {a : α} (n : Nat) (hzero : P 0 a)
    (hsucc : ∀ k < n, ∀ b, P k b → P (k + 1) (f b k)) : P n ((List.range n).foldl f a) := by
  induction n with
  | zero => exact hzero
  | succ n ih =>
    rw [List.range_succ, List.foldl_append]
    exact hsucc n n.lt_succ_self _ (ih fun k hk => hsucc k (Nat.lt_succ_of_lt hk))

/-- `acc`, the screen and `hit` of R172, after XORing the bits that `bits` gives for each pixel onto the screen `fb`. -/
structure BitsDrawn (fb : FrameBuffer) (bits : Fin 32 → Fin 64 → Bool) (acc : FrameBuffer × Bool) : Prop where
  pixel : ∀ y x, acc.1[y][x] = (fb[y][x] ^^ bits y x)
  hit   : acc.2 = true ↔ ∃ y x, bits y x = true ∧ fb[y][x] = true

/-- The sprite bits that the loops of R172 have drawn once `r` rows and `c` bits of the next row are done. -/
def drawnBits (rows : List Byte) (x0 y0 r c : Nat) (y : Fin 32) (x : Fin 64) : Bool :=
  decide (y.val < y0 + r ∨ y.val = y0 + r ∧ x.val < x0 + c) && spriteBit rows x0 y0 y x

section
variable {fb : FrameBuffer} {rows : List Byte} {x0 y0 r c : Nat} {acc : FrameBuffer × Bool}

/-- A whole sprite drawn is the model's screen and collision flag. -/
theorem BitsDrawn.eq_drawSprite (h : BitsDrawn fb (spriteBit rows x0 y0) acc) :
    acc = (drawSprite fb rows x0 y0, spriteHits fb rows x0 y0) := by
  refine Prod.ext (screen_ext fun y x => ?_) (Bool.eq_iff_iff.mpr ?_)
  · rw [h.pixel, drawSprite_pixel]
  · rw [h.hit, spriteHits_iff]

/-- The innermost step leaves a pixel other than its own alone, and its own XORed with the bit (R172). -/
theorem drwPixel_pixel (bit : Bool) (a b : Nat) (acc : FrameBuffer × Bool) (y : Fin 32) (x : Fin 64) :
    (drwPixel bit a b acc).1[y][x] = (acc.1[y][x] ^^ (decide (y.val = a ∧ x.val = b) && bit)) := by
  unfold drwPixel
  split
  next hin =>
    simp only [Fin.getElem_fin, Vector.getElem_set]
    by_cases hy : a = y.val
    · subst hy
      by_cases hx : b = x.val
      · subst hx; simp
      · simp [hx, Ne.symm hx]
    · simp [hy, Ne.symm hy]
  next hout =>
    have : ¬(y.val = a ∧ x.val = b) := by omega
    simp [this]

/-- The innermost step raises `hit` when its bit is set and its pixel was on (R172). -/
theorem drwPixel_hit (bit : Bool) (a b : Nat) (acc : FrameBuffer × Bool) :
    (drwPixel bit a b acc).2 = true ↔
      acc.2 = true ∨ ∃ (y : Fin 32) (x : Fin 64), (y.val = a ∧ x.val = b) ∧ bit = true ∧ acc.1[y][x] = true := by
  unfold drwPixel
  split
  next hin =>
    rw [Bool.or_eq_true, Bool.and_eq_true]
    refine or_congr_right ⟨fun h => ⟨⟨a, by omega⟩, ⟨b, by omega⟩, ⟨rfl, rfl⟩, h⟩, ?_⟩
    rintro ⟨y, x, ⟨rfl, rfl⟩, h⟩
    exact h
  next hout =>
    refine (or_iff_left ?_).symm
    rintro ⟨y, x, hat, -⟩
    omega

/-- Drawing the bit of a pixel at which no bit has been drawn yet. -/
theorem BitsDrawn.add_bit {bits : Fin 32 → Fin 64 → Bool} (h : BitsDrawn fb bits acc) (bit : Bool) (a b : Nat)
    (hnew : ∀ y x, y.val = a ∧ x.val = b → bits y x = false) :
    BitsDrawn fb (fun y x => if y.val = a ∧ x.val = b then bit else bits y x) (drwPixel bit a b acc) where
  pixel y x := by
    rw [drwPixel_pixel, h.pixel]
    by_cases hat : y.val = a ∧ x.val = b
    · simp [eq_true hat, hnew y x hat]
    · simp [hat]
  hit := by
    rw [drwPixel_hit, h.hit, ← exists_or]
    refine exists_congr fun y => ?_
    rw [← exists_or]
    refine exists_congr fun x => ?_
    by_cases hat : y.val = a ∧ x.val = b
    · have hon : acc.1[y][x] = fb[y][x] := by rw [h.pixel, hnew y x hat, Bool.xor_false]
      simp only [hon, hnew y x hat, eq_true hat, if_true, true_and, Bool.false_eq_true, false_and, false_or]
    · simp [hat]

/-- Two conditions that agree inside the sprite's own bounds (R171) cut the same bits out of it. -/
theorem and_spriteBit_congr {y : Fin 32} {x : Fin 64} {p q : Prop} [Decidable p] [Decidable q]
    (h : y0 ≤ y.val ∧ y.val < y0 + rows.length ∧ x0 ≤ x.val ∧ x.val < x0 + 8 → (p ↔ q)) :
    (decide p && spriteBit rows x0 y0 y x) = (decide q && spriteBit rows x0 y0 y x) := by
  rw [spriteBit]
  by_cases hin : y0 ≤ y.val ∧ y.val < y0 + rows.length ∧ x0 ≤ x.val ∧ x.val < x0 + 8
  · rw [decide_eq_decide.mpr (h hin)]
  · rw [decide_eq_false hin, Bool.false_and, Bool.and_false, Bool.and_false]

theorem drawnBits_start : drawnBits rows x0 y0 0 0 = fun _ _ => false := by
  funext y x
  exact (and_spriteBit_congr (q := False) fun _ => iff_false_intro (by omega)).trans (Bool.false_and _)

/-- The sprite is 8 pixels wide (R171), so a row is done after its eighth bit. -/
theorem drawnBits_row_end : drawnBits rows x0 y0 r 8 = drawnBits rows x0 y0 (r + 1) 0 := by
  funext y x
  exact and_spriteBit_congr (by omega)

theorem drawnBits_end : drawnBits rows x0 y0 rows.length 0 = spriteBit rows x0 y0 := by
  funext y x
  exact (and_spriteBit_congr (q := True) fun _ => iff_true_intro (by omega)).trans (Bool.true_and _)

/-- Bit 7 of a row's byte is its leftmost pixel (R171), so bit `7 - c` is the one that column `c` of the loops adds. -/
theorem drawnBits_succ (hr : r < rows.length) (hc : c < 8) :
    drawnBits rows x0 y0 r (c + 1) = fun y x =>
      if y.val = y0 + r ∧ x.val = x0 + c then (rows.getD r 0 >>> (7 - c)).getLsbD 0
      else drawnBits rows x0 y0 r c y x := by
  funext y x
  split
  next hat =>
    simp [drawnBits, spriteBit, hat, hr, hc]
  next hat => exact and_spriteBit_congr (by omega)

/-- The inner loop of R172 draws one row. -/
theorem BitsDrawn.add_row (hr : r < rows.length) (h : BitsDrawn fb (drawnBits rows x0 y0 r 0) acc) :
    BitsDrawn fb (drawnBits rows x0 y0 (r + 1) 0)
      ((List.range 8).foldl
        (fun acc c => drwPixel ((rows.getD r 0 >>> (7 - c)).getLsbD 0) (y0 + r) (x0 + c) acc) acc) := by
  rw [← drawnBits_row_end]
  refine foldl_range_induction (P := fun c => BitsDrawn fb (drawnBits rows x0 y0 r c)) 8 h fun c hc acc hacc => ?_
  rw [drawnBits_succ hr hc]
  exact hacc.add_bit _ _ _ fun y x hat => by simp [drawnBits, hat]

/-- The two loops of R172 draw the whole sprite. -/
theorem drwLoop_bitsDrawn (fb : FrameBuffer) (rows : List Byte) (x0 y0 : Nat) :
    BitsDrawn fb (spriteBit rows x0 y0) (drwLoop fb rows x0 y0) := by
  rw [← drawnBits_end]
  refine foldl_range_induction (P := fun r => BitsDrawn fb (drawnBits rows x0 y0 r 0)) rows.length ?_
    fun r hr acc hacc => hacc.add_row hr
  rw [drawnBits_start]
  exact ⟨fun y x => (Bool.xor_false _).symm, by simp⟩

end

/-! ### DXYN inside the memory and past its end -/

/-- The state in which a completed DXYN leaves `s` (R172). -/
def State.drawn (s : State) (rows : List Byte) (x0 y0 : Nat) : State :=
  (s.setScreen (drawSprite s.fb rows x0 y0)).setReg vf (flagByte (spriteHits s.fb rows x0 y0))

section
variable {s : State} (x y : Reg) {n : Nibble}

/-- DXYN inside the memory (R172). -/
theorem exec_drw_of_le (h : s.i.toNat + n.toNat ≤ 4096) :
    exec (.drw x y n) s = .next (s.drawn (spriteRows s n) (spriteColumn (s.reg x)) (spriteRow (s.reg y))) :=
  ((execDrw_cases s x y n).resolve_left fun c => Nat.not_lt.mpr h c.1).2

/-- DXYN past the memory (R172). -/
theorem exec_drw_of_gt (h : 4096 < s.i.toNat + n.toNat) :
    exec (.drw x y n) s = .next (raiseInstr (.addressingError s.i.toNat n.toNat) s) :=
  ((execDrw_cases s x y n).resolve_right fun c => Nat.not_le.mpr h c.1).2

/-- A DXYN that ends without a fault has its rows inside the memory (R172). -/
theorem drw_le_of_running {t : State} (h : exec (.drw x y n) s = .next t) (hrun : t.run = .running) :
    s.i.toNat + n.toNat ≤ 4096 := by
  by_contra hgt
  obtain rfl := Host.Outcome.next.inj ((exec_drw_of_gt x y (Nat.not_le.mp hgt)).symm.trans h)
  rw [raiseInstr_run] at hrun
  exact RunState.noConfusion hrun

end

/-! ### What a completed DXYN leaves -/

section
variable (s : State) (rows : List Byte) (x0 y0 : Nat)

theorem State.drawn_frame :
    s.drawn rows x0 y0 = { s with v := (s.drawn rows x0 y0).v, fb := (s.drawn rows x0 y0).fb, fbDirty := true } := by
  simp only [State.drawn, State.setReg, State.setScreen]

@[simp] theorem State.drawn_i : (s.drawn rows x0 y0).i = s.i := by rw [State.drawn, State.setReg_i, State.setScreen_i]

@[simp] theorem State.drawn_fb : (s.drawn rows x0 y0).fb = drawSprite s.fb rows x0 y0 := by
  rw [State.drawn, State.setReg_fb, State.setScreen_fb]

@[simp] theorem State.drawn_byteAt (a : Nat) : (s.drawn rows x0 y0).byteAt a = s.byteAt a := by
  rw [State.drawn, State.setReg_byteAt, State.setScreen_byteAt]

@[simp] theorem State.drawn_pixel (r : Fin 32) (c : Fin 64) :
    (s.drawn rows x0 y0).pixel r c = (s.pixel r c ^^ spriteBit rows x0 y0 r c) :=
  drawSprite_pixel s.fb rows x0 y0 r c

theorem State.drawn_vf : (s.drawn rows x0 y0).reg 15 = flagByte (spriteHits s.fb rows x0 y0) := by
  rw [State.drawn, State.reg_setReg, if_pos rfl]

theorem State.drawn_reg_of_ne {z : Reg} (h : z ≠ 15) : (s.drawn rows x0 y0).reg z = s.reg z := by
  rw [State.drawn, State.reg_setReg, if_neg h, State.setScreen_reg]

/-- VF is 1 exactly when a pixel went from on to off (R172). -/
theorem State.drawn_vf_eq_one :
    (s.drawn rows x0 y0).reg 15 = 1 ↔
      ∃ r c, s.pixel r c = true ∧ (s.drawn rows x0 y0).pixel r c = false := by
  rw [State.drawn_vf, flagByte_eq_one]
  exact spriteHits_iff_turnedOff s.fb rows x0 y0

/-- A draw changes none of the row bytes that the next draw reads. -/
theorem spriteRows_drawn (n : Nibble) : spriteRows (s.drawn rows x0 y0) n = spriteRows s n := by
  simp only [spriteRows, State.drawn_i, State.drawn_byteAt]

/-- Drawing the same rows at the same corner again gives every pixel back (R172). -/
theorem State.drawn_drawn_fb : ((s.drawn rows x0 y0).drawn rows x0 y0).fb = s.fb :=
  screen_ext fun y x => by
    rw [State.drawn_fb, State.drawn_fb, drawSprite_pixel, drawSprite_pixel, Bool.xor_assoc, Bool.xor_self,
      Bool.xor_false]

end

/-- The row bytes that DXYN reads put the bit read straight from memory on each pixel (R171). -/
theorem spriteBit_spriteRows (s : State) (n : Nibble) (x0 y0 : Nat) (y : Fin 32) (x : Fin 64) :
    spriteBit (spriteRows s n) x0 y0 y x = s.landingBit x0 y0 n.toNat y x := by
  have hlen : (spriteRows s n).length = n.toNat := by rw [List.length_map, List.length_range]
  rw [spriteBit, State.landingBit, hlen]
  split
  next hin =>
    have hrow : y.val - y0 < n.toNat := by omega
    simp [hin, hrow]
  next hout => rw [decide_eq_false hout, Bool.false_and]

theorem flagByte_eq_one_or_zero (b : Bool) : flagByte b = 1 ∨ flagByte b = 0 := by
  cases b
  · exact .inr rfl
  · exact .inl rfl

/-! ### The obligations -/

/-- Settles O42: each step of the two loops adds its own bit to the bits drawn so far, and at the end of the loops these
are all the bits of the sprite. -/
theorem drawMatchesNestedLoops : Obligations.DrawMatchesNestedLoops := fun fb rows x0 y0 =>
  (drwLoop_bitsDrawn fb rows x0 y0).eq_drawSprite

/-- Settles O40, pixel by pixel: the row bytes are those at `I`, and VF is the collision flag whatever `X` and `Y` are. -/
theorem drawResult : Obligations.DrawResult := by
  rintro x y n s x0 y0 rfl rfl hle
  refine ⟨_, exec_drw_of_le x y hle, State.drawn_frame _ _ _ _, fun r c => ?_, ?_, State.drawn_vf_eq_one _ _ _ _,
    fun z => State.drawn_reg_of_ne _ _ _ _, State.drawn_byteAt _ _ _ _⟩
  · rw [State.drawn_pixel, spriteBit_spriteRows, spriteColumn, spriteRow]
  · rw [State.drawn_vf]
    exact flagByte_eq_one_or_zero _

/-- Settles O43: the second draw has the same rows and the same corner, so it turns off exactly the pixels that the first
one turned on. -/
theorem drawTwiceRestoresScreen : Obligations.DrawTwiceRestoresScreen := by
  intro x y n s t hx hy _ hdraw hrun
  have hle := drw_le_of_running x y hdraw hrun
  obtain rfl := Host.Outcome.next.inj ((exec_drw_of_le x y hle).symm.trans hdraw)
  refine ⟨_, exec_drw_of_le x y (by rwa [State.drawn_i]), ?_, ?_⟩
  all_goals
    rw [spriteRows_drawn, State.drawn_reg_of_ne _ _ _ _ hx, State.drawn_reg_of_ne _ _ _ _ hy]
  · exact State.drawn_drawn_fb _ _ _ _
  · rw [State.drawn_vf_eq_one]
    refine exists_congr fun r => exists_congr fun c => ?_
    rw [and_comm, State.pixel, State.drawn_drawn_fb, ← State.pixel]

/-- Settles O39: one update of the screen. -/
theorem clearScreenResult : Obligations.ClearScreenResult := fun s =>
  ⟨s.setScreen blankScreen, rfl, rfl, blankScreen_pixel, fun _ => rfl⟩

/-- Settles O41: the bounds check covers all `N` rows and comes before any effect. -/
theorem drawPastMemoryFaults : Obligations.DrawPastMemoryFaults := fun x y _ _ => exec_drw_of_gt x y

end Sys2Proof.Machine
end

section
/-! The keypad and the delay timer (`spec/44_keypad_timers.md`): the key skips in every range of `V[X]`, the key wait from
FX0A to the release, and the two timer transfers. -/

namespace Sys2Proof.Machine

/-! ### The key skips by what the key query answers -/

section
variable {s : State} {v : Byte}

/-- The query reads key `k` when `V[X]` is its number, or has it as low four bits under `mask4` (R180). -/
theorem keyLevel_eq_pressed {k : Key}
    (h : v.toNat = k.val ∨ (16 ≤ v.toNat ∧ s.cfg.keyOor = .mask4 ∧ v.toNat % 16 = k.val)) :
    keyLevel s v = .ok (s.pressed k) := by
  obtain hk | ⟨hge, hcfg, hk⟩ := h
  · have hlt : v.toNat < 16 := hk ▸ k.isLt
    rw [keyLevel, dif_pos hlt]
    exact congrArg (Except.ok ∘ s.pressed) (Fin.ext hk)
  · rw [keyLevel, dif_neg (Nat.not_lt.mpr hge), hcfg]
    exact congrArg (Except.ok ∘ s.pressed) (Fin.ext hk)

/-- Out of range under `not_pressed`, no key is down (R180). -/
theorem keyLevel_of_notPressed (hge : 16 ≤ v.toNat) (hcfg : s.cfg.keyOor = .notPressed) : keyLevel s v = .ok false := by
  rw [keyLevel, dif_neg (Nat.not_lt.mpr hge), hcfg]

/-- Out of range under `fault`, the query faults (R180). -/
theorem keyLevel_of_fault (hge : 16 ≤ v.toNat) (hcfg : s.cfg.keyOor = .fault) :
    keyLevel s v = .error (.keyIndexError v) := by
  rw [keyLevel, dif_neg (Nat.not_lt.mpr hge), hcfg]

end

section
variable {s : State} {x : Reg}

/-- SKP and SKNP with the key's level: opposite conditions for the one skip (R181, R182). -/
theorem exec_keySkips_of_ok {down : Bool} (h : keyLevel s (s.reg x) = .ok down) :
    exec (.skp x) s = .next { s with pc := if down then s.pc + 2 else s.pc }
      ∧ exec (.sknp x) s = .next { s with pc := if down then s.pc else s.pc + 2 } := by
  constructor
  · rw [exec, execSkp, h]
    exact congrArg Host.Outcome.next (s.skipIf_of_iff Iff.rfl)
  · rw [exec, execSknp, h]
    cases down <;> rfl

/-- SKP and SKNP when the query faults (R180, R202). -/
theorem exec_keySkips_of_error {e : FaultCause} (h : keyLevel s (s.reg x) = .error e) :
    exec (.skp x) s = .next (s.afterFault e) ∧ exec (.sknp x) s = .next (s.afterFault e) := by
  constructor
  · rw [exec, execSkp, h]; rfl
  · rw [exec, execSknp, h]; rfl

end

/-! ### The wait steps of FX0A -/

/-- An executor step that is next runs on the state whose tick, if one is listed, is used up (R8, R9). -/
theorem step_of_tickNext {s : State} (h : s.TickNext) : step s = executorStep (s.setInputs s.inputs.tail) := by
  cases hin : s.inputs with
  | nil =>
    have hs : s.setInputs [] = s := by rw [← hin]; rfl
    rw [step_of_no_inputs hin, List.tail_nil, hs]
  | cons e rest =>
    obtain hnil | hhead := h
    · exact absurd (hin.symm.trans hnil) (List.cons_ne_nil e rest)
    · obtain rfl : e = .instrTick := by simpa [hin] using hhead
      exact step_of_inputs hin

section
variable {s : State} {x : Reg}

/-- The step of a state that waits for a press (R186). -/
theorem step_of_waitPress (htick : s.TickNext) (hrun : s.run = .waitPress x) :
    step s = .next (waitPressStep x (s.setInputs s.inputs.tail)) := by
  rw [step_of_tickNext htick, executorStep, State.setInputs_run, hrun]

/-- The step of a state that waits for the release of key `k` (R186). -/
theorem step_of_waitRelease {k : Key} (htick : s.TickNext) (hrun : s.run = .waitRelease x k) :
    step s = .next (waitReleaseStep x k (s.setInputs s.inputs.tail)) := by
  rw [step_of_tickNext htick, executorStep, State.setInputs_run, hrun]

end

section
variable (s : State) (x : Reg)

/-- The lowest pressed key is latched (R186 (b)). -/
theorem waitPressStep_of_lowest {k : Key} (hdown : s.pressed k = true) (hlow : ∀ j, j < k → s.pressed j = false) :
    waitPressStep x s = s.setRun (.waitRelease x k) := by
  rw [waitPressStep, (firstPressed_eq_some s k).mpr ⟨hdown, hlow⟩]

/-- With no key down the wait goes on (R186). -/
theorem waitPressStep_of_none (h : ∀ k, s.pressed k = false) : waitPressStep x s = s := by
  rw [waitPressStep, (firstPressed_eq_none s).mpr h]

/-- With the latched key down the wait goes on (R186). -/
theorem waitReleaseStep_of_down {k : Key} (h : s.pressed k = true) : waitReleaseStep x k s = s := if_pos h

/-- When the latched key is up, its number is written and the executor runs again (R186). -/
theorem waitReleaseStep_of_up {k : Key} (h : s.pressed k = false) :
    waitReleaseStep x k s = (s.setReg x (BitVec.ofNat 8 k.val)).setRun .running :=
  if_neg (Bool.eq_false_iff.mp h)

end

/-- A key's number fits its byte. -/
theorem keyByte_toNat (k : Key) : (BitVec.ofNat 8 k.val).toNat = k.val := by
  rw [BitVec.toNat_ofNat]; omega

/-! ### The obligations -/

/-- Settles O44, by what the key query answers in each range of `V[X]`. -/
theorem keySkips : Obligations.KeySkips := fun _ _ =>
  ⟨fun _ hk => exec_keySkips_of_ok (keyLevel_eq_pressed hk),
    fun hge hcfg => exec_keySkips_of_ok (keyLevel_of_notPressed hge hcfg),
    fun hge hcfg => exec_keySkips_of_error (keyLevel_of_fault hge hcfg)⟩

/-- Settles O45, by the two waiting states and, in each, the keys that are down. -/
theorem keyWaitFromStartToRelease : Obligations.KeyWaitFromStartToRelease := by
  refine ⟨fun x s => rfl, fun s x htick => ⟨fun hrun => ?press, fun k hrun => ?release⟩⟩
  case press =>
    rw [step_of_waitPress htick hrun]
    exact ⟨fun k hdown hlow => congrArg Host.Outcome.next (waitPressStep_of_lowest _ x hdown hlow),
      fun hnone => congrArg Host.Outcome.next (waitPressStep_of_none _ x hnone)⟩
  case release =>
    rw [step_of_waitRelease htick hrun]
    exact ⟨fun hdown => congrArg Host.Outcome.next (waitReleaseStep_of_down _ x hdown),
      fun hup => ⟨_, congrArg Host.Outcome.next (waitReleaseStep_of_up _ x hup), rfl,
        fun z => setReg_reg_toNat _ x z (keyByte_toNat k)⟩⟩

/-- Settles O46: one update of a register, and one of `DT`. -/
theorem delayTimerTransfers : Obligations.DelayTimerTransfers := fun x s =>
  ⟨completes_of_registers_alone rfl (setReg_frame s x s.dt) fun z => State.reg_setReg s x z s.dt, rfl⟩

end Sys2Proof.Machine
end

section
/-! The parameters and the optional instructions (`spec/45_optional_ext.md`): no step changes `EXT_OPS` or any other
parameter, and the effects of SYS, RND, LD ST and LD F. -/

namespace Sys2Proof.Machine

/-- Settles O54: using up the event leaves the parameters alone, and so does every effect of a step. -/
theorem stepKeepsParameters : Obligations.StepKeepsParameters := by
  intro s t hstep
  obtain ⟨rest, heff⟩ := step_effect hstep
  exact heff.cfg_eq.trans (s.setInputs_cfg rest)

/-- Settles O49: SYS updates nothing, LD ST and LD F one field each, and RND one register and the count of draws. -/
theorem optionalInstructionResults : Obligations.OptionalInstructionResults := by
  intro nnn x nn s
  refine ⟨?sys, ?ldSt, ?ldF, ?rnd⟩
  case sys => rfl
  case ldSt => rfl
  case ldF => exact ⟨s.setI (glyphAddr (s.reg x)), rfl, rfl, glyphAddr_toNat (s.reg x), s.setI_byteAt _⟩
  case rnd =>
    refine ⟨_, Config.drawnByte s.draws, rfl, rfl, fun z => ?_, fun a => ?_⟩
    · rw [State.countDraw_reg, State.reg_setReg]
    · rw [State.countDraw_byteAt, State.setReg_byteAt]

end Sys2Proof.Machine
end

section
/-! Faults and the step as a whole (`spec/60_exceptions.md`): what a tick does in each run state, which instructions
raise which fault, that a fault is precise and stays until a reset, and the ticks of the timer clock. -/

namespace Sys2Proof.Machine

/-! ### The tick in `Running`, by the outcome of the fetch and the decoder -/

@[simp] theorem fetchWord_setInputs (s : State) (rest : List Input) : fetchWord (s.setInputs rest) = fetchWord s := rfl

section
variable {s : State} (hrun : s.run = .running) (htick : s.TickNext)
include hrun htick

/-- A tick in `Running` fetches, decodes and executes (R210). -/
theorem step_of_running : step s = runningStep (s.setInputs s.inputs.tail) := by
  rw [step_of_tickNext htick, executorStep, State.setInputs_run, hrun]

/-- The tick when the fetch faults (R203): no word reaches `IR`. -/
theorem step_of_fetch_error {e : FaultCause} (hf : fetchWord s = .error e) :
    step s = .next (raise e s.pc (s.setInputs s.inputs.tail)) := by
  rw [step_of_running hrun htick, runningStep, fetchWord_setInputs, hf]; rfl

/-- The tick on a word that the decoder rejects (R204). -/
theorem step_of_decode_error {w : Word} {r : Reject} (hf : fetchWord s = .ok w)
    (hd : decode s.cfg.ext w = .error r) :
    step s = .next (raise (.unknownInstruction w) s.pc ((s.setInputs s.inputs.tail).fetched w)) := by
  rw [step_of_running hrun htick, runningStep, fetchWord_setInputs, hf]
  simp only [State.setInputs_cfg, hd, State.setInputs_pc]

/-- The tick on a word that decodes (R210). -/
theorem step_of_decode_ok {w : Word} {i : Instr} (hf : fetchWord s = .ok w) (hd : decode s.cfg.ext w = .ok i) :
    step s = exec i ((s.setInputs s.inputs.tail).fetched w) := by
  rw [step_of_running hrun htick, runningStep, fetchWord_setInputs, hf]
  simp only [State.setInputs_cfg, hd]

end

/-- Inside the memory the fetch reads the two bytes at `PC`, the first one high (R65). -/
theorem fetchWord_of_le {s : State} (h : s.pc.toNat + 2 ≤ 4096) :
    fetchWord s = .ok (wordOfBytes (s.byteAt s.pc.toNat) (s.byteAt (s.pc.toNat + 1))) :=
  ((fetchWord_cases s).resolve_left fun c => by omega).2

/-- A word outside every enabled row is rejected (R98): the decoder would answer only an instruction of an enabled row
that selects the word, and SYS not for the words of CLS and RET. -/
theorem decode_of_no_row {ext : Config.ExtOps} {w : Word}
    (h : ∀ i : Instr, i.enabled ext = true → w &&& i.row.mask = i.row.pattern →
      i.row.number = 32 ∧ (w = 0x00E0 ∨ w = 0x00EE)) :
    ∃ r, decode ext w = .error r := by
  cases hd : decode ext w with
  | error r => exact ⟨r, rfl⟩
  | ok i =>
    obtain ⟨rfl, hwf, hext⟩ := decode_ok_iff.mp hd
    obtain ⟨hrow, hw⟩ := h i hext (encode_selects_row i)
    obtain ⟨hcls, hret⟩ := (wellFormed_iff i).mp hwf hrow
    exact (hw.elim hcls hret).elim

/-- Settles O7: no enabled row selects the word, so the decoder rejects it. -/
theorem unknownWordFaults : Obligations.UnknownWordFaults := by
  intro s w hrun htick hf hrows
  obtain ⟨r, hd⟩ := decode_of_no_row hrows
  exact step_of_decode_error hrun htick hf hd

/-- Settles O5: the fetch reads the two bytes at `PC`, and their word decodes. -/
theorem stepRunsDecodedInstruction : Obligations.StepRunsDecodedInstruction := fun _ _ hrun htick hle hd =>
  step_of_decode_ok hrun htick (fetchWord_of_le hle) hd

/-! ### Which instructions raise which fault -/

/-- The length of the access at `I` of the four instructions that make one (R203). -/
def accessLength : Instr → Option Nat
  | .drw _ _ k => some k.toNat
  | .ldBVx _ => some 3
  | .ldMemVx x => some (x.val + 1)
  | .ldVxMem x => some (x.val + 1)
  | _ => none

theorem accessLength_eq_some_iff (i : Instr) (n : Nat) :
    accessLength i = some n ↔
      (∃ x y k, i = .drw x y k ∧ n = k.toNat) ∨ (∃ x, i = .ldBVx x ∧ n = 3)
        ∨ (∃ x, i = .ldMemVx x ∧ n = x.val + 1) ∨ ∃ x, i = .ldVxMem x ∧ n = x.val + 1 := by
  constructor
  · cases i with
    | drw x y k => rintro ⟨⟩; exact .inl ⟨x, y, k, rfl, rfl⟩
    | ldBVx x => rintro ⟨⟩; exact .inr (.inl ⟨x, rfl, rfl⟩)
    | ldMemVx x => rintro ⟨⟩; exact .inr (.inr (.inl ⟨x, rfl, rfl⟩))
    | ldVxMem x => rintro ⟨⟩; exact .inr (.inr (.inr ⟨x, rfl, rfl⟩))
    | _ => exact nofun
  · rintro (⟨x, y, k, rfl, rfl⟩ | ⟨x, rfl, rfl⟩ | ⟨x, rfl, rfl⟩ | ⟨x, rfl, rfl⟩) <;> rfl

/-- What an instruction does to the fault record, `s` being the state after the fetch. -/
inductive FaultEffect (i : Instr) (s : State) : State → Prop where
  /-- An access that passes the end of memory (R203). -/
  | pastMemory (n : Nat) (hlen : accessLength i = some n) (hgt : 4096 < s.i.toNat + n) :
      FaultEffect i s (raiseInstr (.addressingError s.i.toNat n) s)
  /-- A stack or key fault of an instruction without an access (R205 to R207). -/
  | other (e : FaultCause) (hlen : accessLength i = none) (he : ∀ a n, e ≠ .addressingError a n) :
      FaultEffect i s (raiseInstr e s)
  /-- No fault. -/
  | kept (t : State) (hfault : t.fault = s.fault) (hle : ∀ n, accessLength i = some n → s.i.toNat + n ≤ 4096) :
      FaultEffect i s t

/-- An instruction with an access, by the bounds check. -/
theorem exec_faultEffect_of_access {i : Instr} {s t : State} {n : Nat} (hlen : accessLength i = some n)
    (h : (4096 < s.i.toNat + n ∧ exec i s = .next (raiseInstr (.addressingError s.i.toNat n) s))
      ∨ (s.i.toNat + n ≤ 4096 ∧ exec i s = .next t)) (hfault : t.fault = s.fault) :
    ∃ t, exec i s = .next t ∧ FaultEffect i s t := by
  obtain ⟨hgt, e⟩ | ⟨hle, e⟩ := h
  · exact ⟨_, e, .pastMemory n hlen hgt⟩
  · refine ⟨t, e, .kept t hfault fun m hm => ?_⟩
    obtain rfl := Option.some.inj (hlen.symm.trans hm)
    exact hle

/-- Every instruction answers a next state, and what it does to the fault record (R202, R203). -/
theorem exec_faultEffect (i : Instr) (s : State) : ∃ t, exec i s = .next t ∧ FaultEffect i s t := by
  cases i with
  | cls | ldImm | addImm | ldReg | addReg | sub | subn | ldI | ldVxDt | ldDtVx | addIVx | ldVxK | sys | rnd | ldStVx
  | ldFVx | jp | jpV0 => exact ⟨_, rfl, .kept _ rfl nofun⟩
  | orReg | andReg | xorReg => exact ⟨_, rfl, .kept _ (by rw [writeLogicResult_frame]) nofun⟩
  | shr | shl => exact ⟨_, rfl, .kept _ (by rw [writeFlagThenResult_frame]) nofun⟩
  | seImm | sneImm | seReg | sneReg => exact ⟨_, rfl, .kept _ (by rw [State.skipIf_eq, State.setPc_fault]) nofun⟩
  | ret =>
    obtain ⟨_, e⟩ | ⟨_, e⟩ := execRet_cases s
    · exact ⟨_, e, .other _ rfl nofun⟩
    · exact ⟨_, e, .kept _ rfl nofun⟩
  | call nnn =>
    obtain ⟨_, e⟩ | ⟨_, e⟩ := execCall_cases s nnn
    · exact ⟨_, e, .other _ rfl nofun⟩
    · exact ⟨_, e, .kept _ rfl nofun⟩
  | skp x =>
    obtain ⟨_, _, e⟩ | ⟨_, _, e⟩ := execSkp_cases s x
    · exact ⟨_, e, .kept _ rfl nofun⟩
    · exact ⟨_, e, .other _ rfl nofun⟩
  | sknp x =>
    obtain ⟨_, _, e⟩ | ⟨_, _, e⟩ := execSknp_cases s x
    · exact ⟨_, e, .kept _ rfl nofun⟩
    · exact ⟨_, e, .other _ rfl nofun⟩
  | drw x y n =>
    exact exec_faultEffect_of_access rfl (execDrw_cases s x y n) (by rw [State.setReg_fault, State.setScreen_fault])
  | ldBVx x => exact exec_faultEffect_of_access rfl (execLdBVx_cases s x) rfl
  | ldMemVx x => exact exec_faultEffect_of_access rfl (execLdMemVx_cases s x) rfl
  | ldVxMem x =>
    exact exec_faultEffect_of_access rfl (execLdVxMem_cases s x) (by rw [State.setI_fault, loadRange_fault])

/-- From a state without a fault, an addressing error is latched exactly by an access past the memory (R203). -/
theorem FaultEffect.addressingError_iff {i : Instr} {s t : State} (heff : FaultEffect i s t) (hnone : s.fault = none)
    (a n : Nat) :
    (∃ p, t.fault = some ⟨.addressingError a n, p⟩) ↔
      a = s.i.toNat ∧ 4096 < a + n ∧ accessLength i = some n := by
  cases heff with
  | pastMemory m hlen hgt =>
    simp only [raiseInstr_fault, hlen, Option.some.injEq, FaultRecord.mk.injEq, FaultCause.addressingError.injEq]
    constructor
    · rintro ⟨_, ⟨rfl, rfl⟩, _⟩; exact ⟨rfl, hgt, rfl⟩
    · rintro ⟨rfl, _, rfl⟩; exact ⟨_, ⟨rfl, rfl⟩, rfl⟩
  | other e hlen he => simp [hlen, he]
  | kept t hfault hle =>
    rw [hfault, hnone]
    refine iff_of_false nofun ?_
    rintro ⟨rfl, hgt, hlen⟩
    exact absurd (hle n hlen) (Nat.not_le.mpr hgt)

/-- The fetch faults exactly at 4095 and above (R203 (a)). -/
theorem fetchWord_eq_error_iff (s : State) (a n : Nat) :
    fetchWord s = .error (.addressingError a n) ↔ a = s.pc.toNat ∧ n = 2 ∧ 4095 ≤ s.pc.toNat := by
  obtain ⟨hge, e⟩ | ⟨hle, e⟩ := fetchWord_cases s <;> rw [e]
  · simp [hge, eq_comm]
  · exact iff_of_false nofun fun ⟨_, _, hge⟩ => by omega

/-- A reset faults exactly on a ROM that does not fit (R252). -/
theorem boot_fault_iff (rom : List Byte) (s : State) (a n : Nat) :
    (∃ p, (boot rom s).fault = some ⟨.addressingError a n, p⟩) ↔ a = 0x200 ∧ n = rom.length ∧ 3584 < rom.length := by
  obtain ⟨hgt, e⟩ | ⟨hle, e⟩ := boot_cases rom s <;> rw [e]
  · simp [hgt, eq_comm]
  · exact iff_of_false nofun fun ⟨_, _, hgt⟩ => by omega

/-- Settles O10, by its three sources: the instructions, the fetch and the reset. -/
theorem addressingErrorSourcesComplete : Obligations.AddressingErrorSourcesComplete := by
  refine ⟨fun i s t a n hnone h => ?_, fetchWord_eq_error_iff, fun s rom a n => boot_fault_iff rom s a n⟩
  obtain ⟨u, hu, heff⟩ := exec_faultEffect i s
  obtain rfl := Host.Outcome.next.inj (hu.symm.trans h)
  rw [heff.addressingError_iff hnone, accessLength_eq_some_iff]

/-- Settles O6: the fetch is one of the sources of AddressingError. -/
theorem fetchPastMemoryFaults : Obligations.FetchPastMemoryFaults := fun s hrun htick hge =>
  step_of_fetch_error hrun htick ((fetchWord_eq_error_iff s _ _).mpr ⟨rfl, rfl, hge⟩)

/-- Settles O9: an instruction that ends in `Faulted` has not completed, so it raised a fault. -/
theorem instructionFaultsArePrecise : Obligations.InstructionFaultsArePrecise := by
  intro i s t hrun h hfaulted
  obtain ⟨e, rfl⟩ | hc := exec_cases h
  · exact ⟨e, rfl⟩
  · exact absurd hfaulted (hc.not_faulted hrun)

/-! ### Every step answers a next state -/

theorem runningStep_answers (s : State) : ∃ t, runningStep s = .next t := by
  obtain ⟨_, _, h⟩ | ⟨_, _, _, h⟩ | ⟨w, i, _, _, h⟩ := runningStep_cases s
  · exact ⟨_, h⟩
  · exact ⟨_, h⟩
  · obtain ⟨t, ht, _⟩ := exec_faultEffect i (s.fetched w)
    exact ⟨t, h.trans ht⟩

theorem executorStep_answers (s : State) : ∃ t, executorStep s = .next t := by
  unfold executorStep
  split
  case h_4 => exact runningStep_answers s
  all_goals exact ⟨_, rfl⟩

theorem handleInput_answers (e : Input) (s : State) : ∃ t, handleInput e s = .next t := by
  cases e with
  | instrTick => exact executorStep_answers s
  | timerTick | setKey | setTimerEn | fbAck | reset | setInstrHz => exact ⟨_, rfl⟩

/-- Settles O11: the agents of R9 answer a next state each. -/
theorem everyStepAnswersNextState : Obligations.EveryStepAnswersNextState := by
  intro s
  cases hin : s.inputs with
  | nil => rw [step_of_no_inputs hin]; exact executorStep_answers s
  | cons e rest => rw [step_of_inputs hin]; exact handleInput_answers e _

/-! ### A latched fault -/

/-- In `Faulted` the executor does nothing (R202, R210). -/
theorem executorStep_of_faulted {s : State} (h : s.run = .faulted) : executorStep s = .next s := by
  rw [executorStep, h]

/-- In `Faulted` no event but a reset reaches `FAULT` or `RUN` (R212). -/
theorem handleInput_keeps_latched_fault {e : Input} {s t : State} (hrun : s.run = .faulted) (hr : ∀ rom, e ≠ .reset rom)
    (h : handleInput e s = .next t) : t.fault = s.fault ∧ t.run = s.run := by
  obtain rfl | hi := eq_or_ne e .instrTick
  · obtain rfl := Host.Outcome.next.inj ((executorStep_of_faulted hrun).symm.trans h)
    exact ⟨rfl, rfl⟩
  · obtain ⟨_, _, _, _, _, rfl, _⟩ := handleInput_frame hi hr h
    exact ⟨rfl, rfl⟩

/-- Settles O8: a latched fault means `Faulted`, where no event but a reset has an effect on the executor's state. -/
theorem faultSticksUntilReset : Obligations.FaultSticksUntilReset := by
  constructor
  · intro s hrun htick
    rw [step_of_tickNext htick]
    exact executorStep_of_faulted hrun
  · intro s t r hlatch hfault hr h
    have hrun : s.run = .faulted := hlatch.mpr (by rw [hfault]; exact Option.some_ne_none r)
    cases hin : s.inputs with
    | nil =>
      rw [step_of_no_inputs hin, executorStep_of_faulted hrun] at h
      cases h
      exact ⟨hfault, hrun⟩
    | cons e rest =>
      rw [step_of_inputs hin] at h
      have hne : ∀ rom, e ≠ .reset rom := fun rom he => hr rom (by rw [hin, he, List.head?_cons])
      obtain ⟨hf, hru⟩ := handleInput_keeps_latched_fault (s := s.setInputs rest) hrun hne h
      exact ⟨hf.trans hfault, hru.trans hrun⟩

end Sys2Proof.Machine
end

section
/-! The timer clock and the rate of the instruction clock (`spec/60_exceptions.md` R217, R218, R230): one tick of the
timers, any number of them, and the event that changes no state. -/

namespace Sys2Proof.Machine

/-! ### The timer clock -/

theorem countDown_toNat (b : Byte) : (countDown b).toNat = b.toNat - 1 := by
  unfold countDown
  split
  case isTrue h => rw [h]; rfl
  case isFalse h => bv_omega

section
variable (s : State)

@[simp] theorem timerStep_inputs : (timerStep s).inputs = s.inputs := by rw [timerStep_eq]

@[simp] theorem timerStep_timerEn : (timerStep s).timerEn = s.timerEn := by rw [timerStep_eq]

theorem timerStep_dt_toNat : (timerStep s).dt.toNat = if s.timerEn then s.dt.toNat - 1 else s.dt.toNat := by
  rw [timerStep_eq, apply_ite BitVec.toNat, countDown_toNat]

theorem timerStep_st_toNat : (timerStep s).st.toNat = if s.timerEn then s.st.toNat - 1 else s.st.toNat := by
  rw [timerStep_eq, apply_ite BitVec.toNat, countDown_toNat]

/-- The timer step writes the two timers alone (R217). -/
theorem timerStep_frame : timerStep s = { s with dt := (timerStep s).dt, st := (timerStep s).st } := by
  simp only [timerStep_eq]

end

/-- A timer tick is the timer step on the state whose event is used up (R9, R217). -/
theorem step_of_timerTick {s : State} {rest : List Input} (h : s.inputs = .timerTick :: rest) :
    step s = .next (timerStep (s.setInputs rest)) := by
  rw [step_of_inputs h, handleInput_timerTick]

/-- Settles O47: the tick is the timer step, whatever the run state is. -/
theorem timerTickCountsDown : Obligations.TimerTickCountsDown := fun _ _ hin =>
  ⟨_, step_of_timerTick hin, timerStep_frame _, timerStep_dt_toNat _, timerStep_st_toNat _⟩

/-- A run goes on from the state of its first step. -/
theorem run_succ_of_step {s t : State} (n : Nat) (h : step s = .next t) : core.run (n + 1) s = core.run n t := by
  have hstep : core.step s = .next t := h
  simp only [Host.Core.run, hstep]

/-- Settles O48, by induction on the ticks: the first one takes 1 from a timer that is not 0, and leaves `timer_en` as
it is for the others. -/
theorem timerAfterManyTicks : Obligations.TimerAfterManyTicks := by
  intro n
  induction n with
  | zero => exact fun s _ => ⟨s, rfl, by simp, by simp⟩
  | succ n ih =>
    intro s hin
    have hfirst := step_of_timerTick (hin.trans List.replicate_succ)
    obtain ⟨t, hrun, hdt, hst⟩ := ih _ (timerStep_inputs (s.setInputs (List.replicate n .timerTick)))
    rw [timerStep_timerEn, State.setInputs_timerEn] at hdt hst
    refine ⟨t, (run_succ_of_step n hfirst).trans hrun, ?_, ?_⟩
    · rw [hdt, timerStep_dt_toNat, State.setInputs_timerEn, State.setInputs_dt]; split <;> omega
    · rw [hst, timerStep_st_toNat, State.setInputs_timerEn, State.setInputs_st]; split <;> omega

/-! ### The rate of the instruction clock -/

/-- Settles O50: the event is used up and nothing else happens. -/
theorem rateChangeChangesNoState : Obligations.RateChangeChangesNoState := by
  intro s hz rest hin
  rw [step_of_inputs hin, handleInput_setInstrHz]; rfl

end Sys2Proof.Machine
end

section
/-! Reset and the end of a run (`spec/70_reset_and_hazards.md`): memory and every field after `reset(rom)` with a ROM
that fits and with one that does not (R250 to R253), and the jump to itself (R262). -/

namespace Sys2Proof.Machine

/-! ### The state after a reset -/

/-- A reset is `boot` on the state whose event is used up (R9, R250). -/
theorem step_of_reset {s : State} {rom : List Byte} {rest : List Input} (h : s.inputs = .reset rom :: rest) :
    step s = .next (boot rom (s.setInputs rest)) := by
  rw [step_of_inputs h, handleInput_reset]

section
variable (rom : List Byte) (s : State)

theorem boot_of_fits (h : rom.length ≤ 3584) : boot rom s = (bootBlank s).store 0x200 rom :=
  ((boot_cases rom s).resolve_left fun c => Nat.not_lt.mpr h c.1).2

theorem boot_of_oversized (h : 3584 < rom.length) :
    boot rom s = raise (.addressingError 0x200 rom.length) 0x0200 (bootBlank s) :=
  ((boot_cases rom s).resolve_right fun c => Nat.not_le.mpr h c.1).2

/-- `FB_CLEAR_ON_RESET` decides whether the screen is blank or kept (R250, R253). -/
@[simp] theorem bootBlank_pixel (y : Fin 32) (x : Fin 64) :
    (bootBlank s).pixel y x = if s.cfg.fbClearOnReset then false else s.pixel y x := by
  rw [State.pixel, bootBlank_fb]
  split
  · exact blankScreen_pixel y x
  · rfl

/-- Memory after any reset: the font table (R251), the ROM above it if it fits (R252), and zeros. -/
theorem boot_byteAt (a : Nat) :
    (boot rom s).byteAt a =
      if 0x50 ≤ a ∧ a < 0xA0 then s.cfg.font.toList.getD (a - 0x50) 0
      else if rom.length ≤ 3584 ∧ 0x200 ≤ a ∧ a < 0x200 + rom.length then rom.getD (a - 0x200) 0 else 0 := by
  by_cases hfits : rom.length ≤ 3584
  · rw [boot_of_fits rom s hfits, State.byteAt_store, bootBlank_byteAt, unlistedByte_eq]
    simp only [hfits, true_and]
    by_cases hfont : 0x50 ≤ a ∧ a < 0xA0
    · have hbelow : ¬(0x200 ≤ a ∧ a < 0x200 + rom.length) := by omega
      rw [if_neg hbelow, if_pos hfont, if_pos hfont]
    · rw [if_neg hfont, if_neg hfont]
  · rw [boot_of_oversized rom s (by omega), raise_byteAt, bootBlank_byteAt, unlistedByte_eq]
    simp only [hfits, false_and, if_false]

end

/-- Settles O2: the state is `bootBlank` with the ROM stored, and a store reaches memory alone. -/
theorem resetEventLoadsRom : Obligations.ResetEventLoadsRom := by
  intro s rom rest hin hfits
  refine ⟨(bootBlank (s.setInputs rest)).store 0x200 rom, ?_, fun y => ?_, rfl, rfl, rfl, fun j => ?_, rfl, rfl, rfl,
    rfl, rfl, rfl, fun y x => ?_, fun a => ?_, rfl, rfl, rfl, rfl, rfl⟩
  · rw [step_of_reset hin, boot_of_fits rom _ hfits]
  · rw [State.store_reg, State.reg_bootBlank]
  · simp
  · rw [State.store_pixel, bootBlank_pixel]; rfl
  · rw [← boot_of_fits rom _ hfits, boot_byteAt]
    simp only [hfits, true_and, State.setInputs_cfg]

/-- Settles O3: the fault is raised on `bootBlank`, so no ROM byte is in memory. -/
theorem oversizedRomFaultsAtReset : Obligations.OversizedRomFaultsAtReset := by
  intro s rom rest hin hlong
  refine ⟨raise (.addressingError 0x200 rom.length) 0x0200 (bootBlank (s.setInputs rest)), ?_, rfl, rfl, rfl,
    fun a => ?_⟩
  · rw [step_of_reset hin, boot_of_oversized rom _ hlong]
  · rw [raise_byteAt, bootBlank_byteAt, unlistedByte_eq, State.setInputs_cfg]

/-- Settles O4: `0x050 + j` is in the font's range, which `boot_byteAt` gives before the ROM's. -/
theorem fontReloadedAtEveryReset : Obligations.FontReloadedAtEveryReset := by
  intro s rom rest hin
  refine ⟨_, step_of_reset hin, fun j hj => ?_⟩
  have hfont : 0x50 ≤ 0x50 + j ∧ 0x50 + j < 0xA0 := by omega
  rw [boot_byteAt, if_pos hfont, Nat.add_sub_cancel_left, State.setInputs_cfg]

/-! ### The jump to itself -/

/-- The executor runs, no event is listed, and the word at `PC` is a jump to `PC` (R262). -/
structure AtSelfJump (nnn : Addr) (s : State) : Prop where
  run : s.run = .running
  inputs : s.inputs = []
  pc : s.pc.toNat = nnn.toNat
  fetch : fetchWord s = .ok (encode (.jp nnn))

section
variable {nnn : Addr} {s : State} (h : AtSelfJump nnn s)
include h

/-- The tick puts `PC` back where the fetch took it from (R24, R121), so only `IR` can differ. -/
theorem AtSelfJump.step_eq : step s = .next { s with ir := encode (.jp nnn) } := by
  have htarget : zextAddr nnn = s.pc := BitVec.eq_of_toNat_eq ((zextAddr_toNat nnn).trans h.pc.symm)
  have hdec : decode s.cfg.ext (encode (.jp nnn)) = .ok (.jp nnn) := decodeOfEncode _ _ rfl rfl
  have hexec : ∀ u, exec (.jp nnn) u = .next (u.setPc s.pc) := fun u => htarget ▸ rfl
  have hinputs : s.setInputs s.inputs.tail = s := by rw [h.inputs, List.tail_nil, ← h.inputs]; rfl
  rw [step_of_decode_ok h.run (.inl h.inputs) h.fetch hdec, hexec, hinputs]
  rfl

/-- No part of the condition reads `IR` (R34). -/
theorem AtSelfJump.of_ir (w : Word) : AtSelfJump nnn { s with ir := w } where
  run := h.run
  inputs := h.inputs
  pc := h.pc
  fetch := h.fetch

end

/-- By induction on the steps: the state after one is at the same jump again. -/
theorem AtSelfJump.safeRun {nnn : Addr} (k : Nat) : ∀ {s : State}, AtSelfJump nnn s → SafeRun k s := by
  induction k with
  | zero => exact fun {s} h => ⟨s, rfl, by simp [h.run]⟩
  | succ k ih =>
    intro s h
    obtain ⟨t, hrun, hsafe⟩ := ih (h.of_ir (encode (.jp nnn)))
    exact ⟨t, (run_succ_of_step k h.step_eq).trans hrun, hsafe⟩

/-- Settles O12: the tick comes back to the same jump, so every run from it is safe. -/
theorem jumpToSelfIsFixedPointAndSafe : Obligations.JumpToSelfIsFixedPointAndSafe := by
  intro s nnn hrun hin hpc hfetch
  have hself : AtSelfJump nnn s := ⟨hrun, hin, hpc, hfetch⟩
  exact ⟨hself.step_eq, fun k => hself.safeRun k⟩

end Sys2Proof.Machine
end
